-- ==== Sys2Proof/Word.lean ====
section
/-! DEFINITION. The two widths of the machine (00_scope.md R4, R5): a byte is 8 bits, an address 16 bits. Both wrap:
`+` and `-` on them are the spec's arithmetic "mod 256" and "mod 65536". -/

namespace Sys2Proof

/-- "Byte" means 8 bits (R5); the width of AC, X, Y, SP and SR (R4, XLEN_DATA). -/
abbrev Byte := BitVec 8

/-- "Address" means a 16-bit unsigned integer (R5); the width of PC (R4, XLEN_ADDR). -/
abbrev Address := BitVec 16

end Sys2Proof
end

