-- ==== Sys2Proof/Config.lean ====
section
/-! DEFINITION. What the platform fixes for the core (00_scope.md R4: the OPEN parameters `bindings` and
`backend behaviour`), as plain data that a State carries, and the one free value of the model: the answer of a backend
whose behaviour the spec does not define (20_memory.md R45). -/

namespace Sys2Proof

/-- What stands behind a binding (R45, 00_scope.md R7). `ram` is the spec's reference backend. A `rom` location reads as the
byte stored there (R33), and what a write does to it is not specified (R45, U9). A `device` is any other I/O backend: a read
is an answer the model does not choose and a write is an event it records (R45, D26). -/
inductive BackendKind where
  | ram
  | rom
  | device
  deriving DecidableEq, Repr

/-- An implementor of the memory capability, with its `size()` in bytes (R32, R45). -/
structure Backend where
  kind : BackendKind
  size : Nat
  deriving DecidableEq, Repr

/-- One entry of the bus: a backend (by its number in the platform's list) registered over
`[base, base + size - 1]` (R32). One backend may be registered at several bases. The `name` argument of `attach` has no effect
on lookup (R32) and is left out. -/
structure Binding where
  backend : Nat
  base    : Address
  deriving DecidableEq, Repr

/-- The parameter `bindings`: the backends there are, and the bindings in attachment order (R32). -/
structure Platform where
  backends : List Backend
  bindings : List Binding
  deriving DecidableEq, Repr

/-- One access the bus delivered to a backend: the bus address, the backend and its local address (R36), and the byte read or
written. This is the Bus read and Bus write interface of R7, whose sequence is what is observable of a Step (R3, R44). -/
inductive Access where
  | read  (addr : Address) (backend localAddr : Nat) (data : Byte)
  | write (addr : Address) (backend localAddr : Nat) (data : Byte)
  deriving DecidableEq, Repr

/-- FREE VALUE (R45, D26, U9): the byte an unspecified backend answers, as a function of the backend, its local address and
every access delivered before this one. It has no body, so nothing can be proved about its value. Log entry 3. -/
opaque Config.deviceAnswer (backend localAddr : Nat) (before : List Access) : Byte

/-- DESIGN CHOICE (log entry 4): the platform State.reset carries, one RAM backend over 0x0000 to 0xFFFF, which is the start
state of 95_test_vectors.md. The spec leaves the platform open (R4); every claim about a State ranges over all platforms. -/
def Config.ramPlatform : Platform :=
  { backends := [{ kind := .ram, size := 65536 }], bindings := [{ backend := 0, base := 0x0000 }] }

end Sys2Proof
end

