-- ==== Sys2Proof/Syntax.lean ====
section
/-! DEFINITION. The instructions as syntax: 47 mnemonics, twelve addressing modes, and one constructor of `Instr` per row of
spec/opcode_table.json (30_encoding.md R56: 140 legal opcodes). A constructor carries exactly the operand field its length
gives it (R51, R54, D34): none, `operand8` or `operand16`. -/

namespace Sys2Proof

/-- The 46 admitted 6502 mnemonics and the halt extension HLT (R1, R56). -/
inductive Mnemonic where
  | ADC | SBC
  | AND | ORA | EOR
  | ASL | LSR | ROL | ROR
  | CMP | CPX | CPY
  | INC | DEC | INX | DEX | INY | DEY
  | BCC | BCS | BEQ | BNE | BMI | BPL
  | JMP | JSR | RTS
  | PHA | PLA | TAX | TAY | TXA | TYA | TXS
  | CLC | SEC | CLI | SEI | CLD | NOP | HLT
  | LDA | LDX | LDY | STA | STX | STY
  deriving DecidableEq, Repr

/-- The twelve addressing modes (R51, R62 to R73). -/
inductive Mode where
  | implied | accumulator | immediate
  | zeropage | zeropageX | zeropageY
  | absolute | absoluteX | absoluteY
  | indirectX | indirectY
  | relative
  deriving DecidableEq, Repr

/-- The eight modes that have an effective address (R65 to R72), each with its operand field. -/
inductive MemForm where
  | zeropage  (n : Byte)
  | zeropageX (n : Byte)
  | zeropageY (n : Byte)
  | absolute  (w : Address)
  | absoluteX (w : Address)
  | absoluteY (w : Address)
  | indirectX (n : Byte)
  | indirectY (n : Byte)
  deriving DecidableEq, Repr

/-- An addressing mode together with the operand field of the instruction (R51, R54). -/
inductive Form where
  | implied
  | accumulator
  | immediate (n : Byte)
  | memory    (f : MemForm)
  | relative  (n : Byte)
  deriving DecidableEq, Repr

/-- Where an instruction that only reads takes its 8-bit operand from (R74): `operand8` itself, or memory. -/
inductive Source where
  | immediate (n : Byte)
  | memory    (f : MemForm)
  deriving DecidableEq, Repr

/-- The instructions, one constructor per row of spec/opcode_table.json. The suffix names the mode: Acc accumulator,
Imm immediate, Zp, Zpx, Zpy zeropage and zeropage,X and ,Y, Abs, Abx, Aby absolute and absolute,X and ,Y, Inx indirect,X,
Iny indirect,Y, and none for implied and relative and for JMP and JSR. -/
inductive Instr where
  -- ADC
  | adcImm (n : Byte)
  | adcZp (n : Byte)
  | adcZpx (n : Byte)
  | adcAbs (w : Address)
  | adcAbx (w : Address)
  | adcAby (w : Address)
  | adcInx (n : Byte)
  | adcIny (n : Byte)
  -- SBC
  | sbcImm (n : Byte)
  | sbcZp (n : Byte)
  | sbcZpx (n : Byte)
  | sbcAbs (w : Address)
  | sbcAbx (w : Address)
  | sbcAby (w : Address)
  | sbcInx (n : Byte)
  | sbcIny (n : Byte)
  -- AND
  | andImm (n : Byte)
  | andZp (n : Byte)
  | andZpx (n : Byte)
  | andAbs (w : Address)
  | andAbx (w : Address)
  | andAby (w : Address)
  | andInx (n : Byte)
  | andIny (n : Byte)
  -- ORA
  | oraImm (n : Byte)
  | oraZp (n : Byte)
  | oraZpx (n : Byte)
  | oraAbs (w : Address)
  | oraAbx (w : Address)
  | oraAby (w : Address)
  | oraInx (n : Byte)
  | oraIny (n : Byte)
  -- EOR
  | eorImm (n : Byte)
  | eorZp (n : Byte)
  | eorZpx (n : Byte)
  | eorAbs (w : Address)
  | eorAbx (w : Address)
  | eorAby (w : Address)
  | eorInx (n : Byte)
  | eorIny (n : Byte)
  -- ASL
  | aslAcc
  | aslZp (n : Byte)
  | aslZpx (n : Byte)
  | aslAbs (w : Address)
  | aslAbx (w : Address)
  -- LSR
  | lsrAcc
  | lsrZp (n : Byte)
  | lsrZpx (n : Byte)
  | lsrAbs (w : Address)
  | lsrAbx (w : Address)
  -- ROL
  | rolAcc
  | rolZp (n : Byte)
  | rolZpx (n : Byte)
  | rolAbs (w : Address)
  | rolAbx (w : Address)
  -- ROR
  | rorAcc
  | rorZp (n : Byte)
  | rorZpx (n : Byte)
  | rorAbs (w : Address)
  | rorAbx (w : Address)
  -- CMP
  | cmpImm (n : Byte)
  | cmpZp (n : Byte)
  | cmpZpx (n : Byte)
  | cmpAbs (w : Address)
  | cmpAbx (w : Address)
  | cmpAby (w : Address)
  | cmpInx (n : Byte)
  | cmpIny (n : Byte)
  -- CPX
  | cpxImm (n : Byte)
  | cpxZp (n : Byte)
  | cpxAbs (w : Address)
  -- CPY
  | cpyImm (n : Byte)
  | cpyZp (n : Byte)
  | cpyAbs (w : Address)
  -- INC
  | incZp (n : Byte)
  | incZpx (n : Byte)
  | incAbs (w : Address)
  | incAbx (w : Address)
  -- DEC
  | decZp (n : Byte)
  | decZpx (n : Byte)
  | decAbs (w : Address)
  | decAbx (w : Address)
  -- INX
  | inx
  -- DEX
  | dex
  -- INY
  | iny
  -- DEY
  | dey
  -- BCC
  | bcc (n : Byte)
  -- BCS
  | bcs (n : Byte)
  -- BEQ
  | beq (n : Byte)
  -- BNE
  | bne (n : Byte)
  -- BMI
  | bmi (n : Byte)
  -- BPL
  | bpl (n : Byte)
  -- JMP
  | jmp (w : Address)
  -- JSR
  | jsr (w : Address)
  -- RTS
  | rts
  -- PHA
  | pha
  -- PLA
  | pla
  -- TAX
  | tax
  -- TAY
  | tay
  -- TXA
  | txa
  -- TYA
  | tya
  -- TXS
  | txs
  -- CLC
  | clc
  -- SEC
  | sec
  -- CLI
  | cli
  -- SEI
  | sei
  -- CLD
  | cld
  -- NOP
  | nop
  -- HLT
  | hlt
  -- LDA
  | ldaImm (n : Byte)
  | ldaZp (n : Byte)
  | ldaZpx (n : Byte)
  | ldaAbs (w : Address)
  | ldaAbx (w : Address)
  | ldaAby (w : Address)
  | ldaInx (n : Byte)
  | ldaIny (n : Byte)
  -- LDX
  | ldxImm (n : Byte)
  | ldxZp (n : Byte)
  | ldxZpy (n : Byte)
  | ldxAbs (w : Address)
  | ldxAby (w : Address)
  -- LDY
  | ldyImm (n : Byte)
  | ldyZp (n : Byte)
  | ldyZpx (n : Byte)
  | ldyAbs (w : Address)
  | ldyAbx (w : Address)
  -- STA
  | staZp (n : Byte)
  | staZpx (n : Byte)
  | staAbs (w : Address)
  | staAbx (w : Address)
  | staAby (w : Address)
  | staInx (n : Byte)
  | staIny (n : Byte)
  -- STX
  | stxZp (n : Byte)
  | stxZpy (n : Byte)
  | stxAbs (w : Address)
  -- STY
  | styZp (n : Byte)
  | styZpx (n : Byte)
  | styAbs (w : Address)
  deriving DecidableEq, Repr

/-- The mode of a memory form. -/
def MemForm.mode : MemForm → Mode
  | .zeropage _  => .zeropage
  | .zeropageX _ => .zeropageX
  | .zeropageY _ => .zeropageY
  | .absolute _  => .absolute
  | .absoluteX _ => .absoluteX
  | .absoluteY _ => .absoluteY
  | .indirectX _ => .indirectX
  | .indirectY _ => .indirectY

/-- The mode of a form. -/
def Form.mode : Form → Mode
  | .implied     => .implied
  | .accumulator => .accumulator
  | .immediate _ => .immediate
  | .memory f    => f.mode
  | .relative _  => .relative

/-- The source of a form that an instruction may read its operand from (R74). -/
def Form.source? : Form → Option Source
  | .immediate n => some (.immediate n)
  | .memory f    => some (.memory f)
  | .implied | .accumulator | .relative _ => none

/-- The memory form of a form that has an effective address (R65 to R72). -/
def Form.memory? : Form → Option MemForm
  | .memory f => some f
  | .implied | .accumulator | .immediate _ | .relative _ => none

/-- The mnemonic field of an instruction's descriptor (R52). -/
def Instr.mnemonic : Instr → Mnemonic
  | .adcImm _ | .adcZp _ | .adcZpx _ | .adcAbs _ | .adcAbx _ | .adcAby _ | .adcInx _ | .adcIny _ => .ADC
  | .sbcImm _ | .sbcZp _ | .sbcZpx _ | .sbcAbs _ | .sbcAbx _ | .sbcAby _ | .sbcInx _ | .sbcIny _ => .SBC
  | .andImm _ | .andZp _ | .andZpx _ | .andAbs _ | .andAbx _ | .andAby _ | .andInx _ | .andIny _ => .AND
  | .oraImm _ | .oraZp _ | .oraZpx _ | .oraAbs _ | .oraAbx _ | .oraAby _ | .oraInx _ | .oraIny _ => .ORA
  | .eorImm _ | .eorZp _ | .eorZpx _ | .eorAbs _ | .eorAbx _ | .eorAby _ | .eorInx _ | .eorIny _ => .EOR
  | .aslAcc | .aslZp _ | .aslZpx _ | .aslAbs _ | .aslAbx _ => .ASL
  | .lsrAcc | .lsrZp _ | .lsrZpx _ | .lsrAbs _ | .lsrAbx _ => .LSR
  | .rolAcc | .rolZp _ | .rolZpx _ | .rolAbs _ | .rolAbx _ => .ROL
  | .rorAcc | .rorZp _ | .rorZpx _ | .rorAbs _ | .rorAbx _ => .ROR
  | .cmpImm _ | .cmpZp _ | .cmpZpx _ | .cmpAbs _ | .cmpAbx _ | .cmpAby _ | .cmpInx _ | .cmpIny _ => .CMP
  | .cpxImm _ | .cpxZp _ | .cpxAbs _ => .CPX
  | .cpyImm _ | .cpyZp _ | .cpyAbs _ => .CPY
  | .incZp _ | .incZpx _ | .incAbs _ | .incAbx _ => .INC
  | .decZp _ | .decZpx _ | .decAbs _ | .decAbx _ => .DEC
  | .inx => .INX
  | .dex => .DEX
  | .iny => .INY
  | .dey => .DEY
  | .bcc _ => .BCC
  | .bcs _ => .BCS
  | .beq _ => .BEQ
  | .bne _ => .BNE
  | .bmi _ => .BMI
  | .bpl _ => .BPL
  | .jmp _ => .JMP
  | .jsr _ => .JSR
  | .rts => .RTS
  | .pha => .PHA
  | .pla => .PLA
  | .tax => .TAX
  | .tay => .TAY
  | .txa => .TXA
  | .tya => .TYA
  | .txs => .TXS
  | .clc => .CLC
  | .sec => .SEC
  | .cli => .CLI
  | .sei => .SEI
  | .cld => .CLD
  | .nop => .NOP
  | .hlt => .HLT
  | .ldaImm _ | .ldaZp _ | .ldaZpx _ | .ldaAbs _ | .ldaAbx _ | .ldaAby _ | .ldaInx _ | .ldaIny _ => .LDA
  | .ldxImm _ | .ldxZp _ | .ldxZpy _ | .ldxAbs _ | .ldxAby _ => .LDX
  | .ldyImm _ | .ldyZp _ | .ldyZpx _ | .ldyAbs _ | .ldyAbx _ => .LDY
  | .staZp _ | .staZpx _ | .staAbs _ | .staAbx _ | .staAby _ | .staInx _ | .staIny _ => .STA
  | .stxZp _ | .stxZpy _ | .stxAbs _ => .STX
  | .styZp _ | .styZpx _ | .styAbs _ => .STY

/-- The addressing mode of an instruction's descriptor with the operand field that was read for it (R25, R52). -/
def Instr.form : Instr → Form
  | .adcImm n => .immediate n
  | .adcZp n => .memory (.zeropage n)
  | .adcZpx n => .memory (.zeropageX n)
  | .adcAbs w => .memory (.absolute w)
  | .adcAbx w => .memory (.absoluteX w)
  | .adcAby w => .memory (.absoluteY w)
  | .adcInx n => .memory (.indirectX n)
  | .adcIny n => .memory (.indirectY n)
  | .sbcImm n => .immediate n
  | .sbcZp n => .memory (.zeropage n)
  | .sbcZpx n => .memory (.zeropageX n)
  | .sbcAbs w => .memory (.absolute w)
  | .sbcAbx w => .memory (.absoluteX w)
  | .sbcAby w => .memory (.absoluteY w)
  | .sbcInx n => .memory (.indirectX n)
  | .sbcIny n => .memory (.indirectY n)
  | .andImm n => .immediate n
  | .andZp n => .memory (.zeropage n)
  | .andZpx n => .memory (.zeropageX n)
  | .andAbs w => .memory (.absolute w)
  | .andAbx w => .memory (.absoluteX w)
  | .andAby w => .memory (.absoluteY w)
  | .andInx n => .memory (.indirectX n)
  | .andIny n => .memory (.indirectY n)
  | .oraImm n => .immediate n
  | .oraZp n => .memory (.zeropage n)
  | .oraZpx n => .memory (.zeropageX n)
  | .oraAbs w => .memory (.absolute w)
  | .oraAbx w => .memory (.absoluteX w)
  | .oraAby w => .memory (.absoluteY w)
  | .oraInx n => .memory (.indirectX n)
  | .oraIny n => .memory (.indirectY n)
  | .eorImm n => .immediate n
  | .eorZp n => .memory (.zeropage n)
  | .eorZpx n => .memory (.zeropageX n)
  | .eorAbs w => .memory (.absolute w)
  | .eorAbx w => .memory (.absoluteX w)
  | .eorAby w => .memory (.absoluteY w)
  | .eorInx n => .memory (.indirectX n)
  | .eorIny n => .memory (.indirectY n)
  | .aslAcc => .accumulator
  | .aslZp n => .memory (.zeropage n)
  | .aslZpx n => .memory (.zeropageX n)
  | .aslAbs w => .memory (.absolute w)
  | .aslAbx w => .memory (.absoluteX w)
  | .lsrAcc => .accumulator
  | .lsrZp n => .memory (.zeropage n)
  | .lsrZpx n => .memory (.zeropageX n)
  | .lsrAbs w => .memory (.absolute w)
  | .lsrAbx w => .memory (.absoluteX w)
  | .rolAcc => .accumulator
  | .rolZp n => .memory (.zeropage n)
  | .rolZpx n => .memory (.zeropageX n)
  | .rolAbs w => .memory (.absolute w)
  | .rolAbx w => .memory (.absoluteX w)
  | .rorAcc => .accumulator
  | .rorZp n => .memory (.zeropage n)
  | .rorZpx n => .memory (.zeropageX n)
  | .rorAbs w => .memory (.absolute w)
  | .rorAbx w => .memory (.absoluteX w)
  | .cmpImm n => .immediate n
  | .cmpZp n => .memory (.zeropage n)
  | .cmpZpx n => .memory (.zeropageX n)
  | .cmpAbs w => .memory (.absolute w)
  | .cmpAbx w => .memory (.absoluteX w)
  | .cmpAby w => .memory (.absoluteY w)
  | .cmpInx n => .memory (.indirectX n)
  | .cmpIny n => .memory (.indirectY n)
  | .cpxImm n => .immediate n
  | .cpxZp n => .memory (.zeropage n)
  | .cpxAbs w => .memory (.absolute w)
  | .cpyImm n => .immediate n
  | .cpyZp n => .memory (.zeropage n)
  | .cpyAbs w => .memory (.absolute w)
  | .incZp n => .memory (.zeropage n)
  | .incZpx n => .memory (.zeropageX n)
  | .incAbs w => .memory (.absolute w)
  | .incAbx w => .memory (.absoluteX w)
  | .decZp n => .memory (.zeropage n)
  | .decZpx n => .memory (.zeropageX n)
  | .decAbs w => .memory (.absolute w)
  | .decAbx w => .memory (.absoluteX w)
  | .inx => .implied
  | .dex => .implied
  | .iny => .implied
  | .dey => .implied
  | .bcc n => .relative n
  | .bcs n => .relative n
  | .beq n => .relative n
  | .bne n => .relative n
  | .bmi n => .relative n
  | .bpl n => .relative n
  | .jmp w => .memory (.absolute w)
  | .jsr w => .memory (.absolute w)
  | .rts => .implied
  | .pha => .implied
  | .pla => .implied
  | .tax => .implied
  | .tay => .implied
  | .txa => .implied
  | .tya => .implied
  | .txs => .implied
  | .clc => .implied
  | .sec => .implied
  | .cli => .implied
  | .sei => .implied
  | .cld => .implied
  | .nop => .implied
  | .hlt => .implied
  | .ldaImm n => .immediate n
  | .ldaZp n => .memory (.zeropage n)
  | .ldaZpx n => .memory (.zeropageX n)
  | .ldaAbs w => .memory (.absolute w)
  | .ldaAbx w => .memory (.absoluteX w)
  | .ldaAby w => .memory (.absoluteY w)
  | .ldaInx n => .memory (.indirectX n)
  | .ldaIny n => .memory (.indirectY n)
  | .ldxImm n => .immediate n
  | .ldxZp n => .memory (.zeropage n)
  | .ldxZpy n => .memory (.zeropageY n)
  | .ldxAbs w => .memory (.absolute w)
  | .ldxAby w => .memory (.absoluteY w)
  | .ldyImm n => .immediate n
  | .ldyZp n => .memory (.zeropage n)
  | .ldyZpx n => .memory (.zeropageX n)
  | .ldyAbs w => .memory (.absolute w)
  | .ldyAbx w => .memory (.absoluteX w)
  | .staZp n => .memory (.zeropage n)
  | .staZpx n => .memory (.zeropageX n)
  | .staAbs w => .memory (.absolute w)
  | .staAbx w => .memory (.absoluteX w)
  | .staAby w => .memory (.absoluteY w)
  | .staInx n => .memory (.indirectX n)
  | .staIny n => .memory (.indirectY n)
  | .stxZp n => .memory (.zeropage n)
  | .stxZpy n => .memory (.zeropageY n)
  | .stxAbs w => .memory (.absolute w)
  | .styZp n => .memory (.zeropage n)
  | .styZpx n => .memory (.zeropageX n)
  | .styAbs w => .memory (.absolute w)

end Sys2Proof
end

