-- ==== Sys2Proof/WellFormed.lean ====
section
/-! DEFINITION. What is well formed. An instruction's mode must be one its mnemonic has (30_encoding.md R56, R75): the
constructors of `Instr` can spell no other, and `admits` is the check on a mnemonic and a mode. A platform must meet
20_memory.md R46, and the model refuses one that does not (D25, U16). -/

namespace Sys2Proof

/-- The mnemonic-by-mode matrix of R56. -/
def admits (m : Mnemonic) (d : Mode) : Bool :=
  match m with
  | .ADC | .SBC | .AND | .ORA | .EOR | .CMP | .LDA => [Mode.immediate, .zeropage, .zeropageX, .absolute, .absoluteX, .absoluteY, .indirectX, .indirectY].contains d
  | .ASL | .LSR | .ROL | .ROR => [Mode.accumulator, .zeropage, .zeropageX, .absolute, .absoluteX].contains d
  | .CPX | .CPY => [Mode.immediate, .zeropage, .absolute].contains d
  | .INC | .DEC => [Mode.zeropage, .zeropageX, .absolute, .absoluteX].contains d
  | .INX | .DEX | .INY | .DEY | .RTS | .PHA | .PLA | .TAX | .TAY | .TXA | .TYA | .TXS | .CLC | .SEC | .CLI | .SEI | .CLD | .NOP | .HLT => [Mode.implied].contains d
  | .BCC | .BCS | .BEQ | .BNE | .BMI | .BPL => [Mode.relative].contains d
  | .JMP | .JSR => [Mode.absolute].contains d
  | .LDX => [Mode.immediate, .zeropage, .zeropageY, .absolute, .absoluteY].contains d
  | .LDY => [Mode.immediate, .zeropage, .zeropageX, .absolute, .absoluteX].contains d
  | .STA => [Mode.zeropage, .zeropageX, .absolute, .absoluteX, .absoluteY, .indirectX, .indirectY].contains d
  | .STX => [Mode.zeropage, .zeropageY, .absolute].contains d
  | .STY => [Mode.zeropage, .zeropageX, .absolute].contains d

/-- A well-formed instruction: its mnemonic has its mode (R56). -/
def Instr.wf (i : Instr) : Bool := admits i.mnemonic i.form.mode

/-- The size of a binding is its backend's `size()` (R32); a binding whose backend is not there covers nothing. -/
def Platform.sizeOf (p : Platform) (b : Binding) : Nat :=
  match p.backends[b.backend]? with
  | some k => k.size
  | none   => 0

/-- A well-formed binding: `size >= 1` and `base + size - 1 <= 0xFFFF` (R46). -/
def Platform.bindingWf (p : Platform) (b : Binding) : Bool :=
  decide (1 ≤ p.sizeOf b) && decide (b.base.toNat + p.sizeOf b ≤ 65536)

/-- A well-formed configuration (R46). Overlaps and gaps are allowed. -/
def Platform.wf (p : Platform) : Bool := p.bindings.all p.bindingWf

end Sys2Proof
end

