-- ==== Sys2Proof/Decode.lean ====
section
/-! DEFINITION. The decoder and the encoder (30_encoding.md R50 to R60). Decoding is a look-up of byte 0 in the table of R56,
which fixes the mnemonic, the mode and so the length; the operand bytes follow, low byte first (R51, R53, R54). A byte with no
row is illegal (R57) and is rejected by name. -/

namespace Sys2Proof

/-- `hi(v)` is `v[15:8]` (R5). -/
def hi (v : Address) : Byte := v.extractLsb' 8 8

/-- `lo(v)` is `v[7:0]` (R5). -/
def lo (v : Address) : Byte := v.extractLsb' 0 8

/-- `h : l` is the 16-bit value `h * 256 + l` (R5). -/
def join (h l : Byte) : Address := (h ++ l : BitVec (8 + 8))

/-- Byte length of each mode (R51). -/
def Mode.length : Mode → Nat
  | .implied | .accumulator => 1
  | .immediate | .zeropage | .zeropageX | .zeropageY | .indirectX | .indirectY | .relative => 2
  | .absolute | .absoluteX | .absoluteY => 3

/-- The byte length field of an instruction's descriptor (R52). -/
def Instr.length (i : Instr) : Nat := i.form.mode.length

/-- What a descriptor says is still to be read after the opcode byte (R51, R53): nothing (F1), `operand8` (F2) or
`operand16` (F3), and the instruction that then results. -/
inductive Descriptor where
  | f1 (i : Instr)
  | f2 (make : Byte → Instr)
  | f3 (make : Address → Instr)

/-- `length` of a descriptor (R52). -/
def Descriptor.length : Descriptor → Nat
  | .f1 _ => 1
  | .f2 _ => 2
  | .f3 _ => 3

/-- Row 0x of the opcode grid of R56. -/
def opcodeRow0 : List (Byte × Descriptor) :=
  [(0x01, .f2 .oraInx), (0x05, .f2 .oraZp), (0x06, .f2 .aslZp), (0x09, .f2 .oraImm), (0x0A, .f1 .aslAcc),
   (0x0D, .f3 .oraAbs), (0x0E, .f3 .aslAbs)]

/-- Row 1x of the opcode grid of R56. -/
def opcodeRow1 : List (Byte × Descriptor) :=
  [(0x10, .f2 .bpl), (0x11, .f2 .oraIny), (0x15, .f2 .oraZpx), (0x16, .f2 .aslZpx), (0x18, .f1 .clc),
   (0x19, .f3 .oraAby), (0x1D, .f3 .oraAbx), (0x1E, .f3 .aslAbx)]

/-- Row 2x of the opcode grid of R56. -/
def opcodeRow2 : List (Byte × Descriptor) :=
  [(0x20, .f3 .jsr), (0x21, .f2 .andInx), (0x25, .f2 .andZp), (0x26, .f2 .rolZp), (0x29, .f2 .andImm),
   (0x2A, .f1 .rolAcc), (0x2D, .f3 .andAbs), (0x2E, .f3 .rolAbs)]

/-- Row 3x of the opcode grid of R56. -/
def opcodeRow3 : List (Byte × Descriptor) :=
  [(0x30, .f2 .bmi), (0x31, .f2 .andIny), (0x35, .f2 .andZpx), (0x36, .f2 .rolZpx), (0x38, .f1 .sec),
   (0x39, .f3 .andAby), (0x3D, .f3 .andAbx), (0x3E, .f3 .rolAbx)]

/-- Row 4x of the opcode grid of R56. -/
def opcodeRow4 : List (Byte × Descriptor) :=
  [(0x41, .f2 .eorInx), (0x45, .f2 .eorZp), (0x46, .f2 .lsrZp), (0x48, .f1 .pha), (0x49, .f2 .eorImm),
   (0x4A, .f1 .lsrAcc), (0x4C, .f3 .jmp), (0x4D, .f3 .eorAbs), (0x4E, .f3 .lsrAbs)]

/-- Row 5x of the opcode grid of R56. -/
def opcodeRow5 : List (Byte × Descriptor) :=
  [(0x51, .f2 .eorIny), (0x55, .f2 .eorZpx), (0x56, .f2 .lsrZpx), (0x58, .f1 .cli), (0x59, .f3 .eorAby),
   (0x5D, .f3 .eorAbx), (0x5E, .f3 .lsrAbx)]

/-- Row 6x of the opcode grid of R56. -/
def opcodeRow6 : List (Byte × Descriptor) :=
  [(0x60, .f1 .rts), (0x61, .f2 .adcInx), (0x65, .f2 .adcZp), (0x66, .f2 .rorZp), (0x68, .f1 .pla),
   (0x69, .f2 .adcImm), (0x6A, .f1 .rorAcc), (0x6D, .f3 .adcAbs), (0x6E, .f3 .rorAbs)]

/-- Row 7x of the opcode grid of R56. -/
def opcodeRow7 : List (Byte × Descriptor) :=
  [(0x71, .f2 .adcIny), (0x75, .f2 .adcZpx), (0x76, .f2 .rorZpx), (0x78, .f1 .sei), (0x79, .f3 .adcAby),
   (0x7D, .f3 .adcAbx), (0x7E, .f3 .rorAbx)]

/-- Row 8x of the opcode grid of R56. -/
def opcodeRow8 : List (Byte × Descriptor) :=
  [(0x81, .f2 .staInx), (0x84, .f2 .styZp), (0x85, .f2 .staZp), (0x86, .f2 .stxZp), (0x88, .f1 .dey),
   (0x8A, .f1 .txa), (0x8C, .f3 .styAbs), (0x8D, .f3 .staAbs), (0x8E, .f3 .stxAbs)]

/-- Row 9x of the opcode grid of R56. -/
def opcodeRow9 : List (Byte × Descriptor) :=
  [(0x90, .f2 .bcc), (0x91, .f2 .staIny), (0x94, .f2 .styZpx), (0x95, .f2 .staZpx), (0x96, .f2 .stxZpy),
   (0x98, .f1 .tya), (0x99, .f3 .staAby), (0x9A, .f1 .txs), (0x9D, .f3 .staAbx)]

/-- Row Ax of the opcode grid of R56. -/
def opcodeRowA : List (Byte × Descriptor) :=
  [(0xA0, .f2 .ldyImm), (0xA1, .f2 .ldaInx), (0xA2, .f2 .ldxImm), (0xA4, .f2 .ldyZp), (0xA5, .f2 .ldaZp),
   (0xA6, .f2 .ldxZp), (0xA8, .f1 .tay), (0xA9, .f2 .ldaImm), (0xAA, .f1 .tax), (0xAC, .f3 .ldyAbs),
   (0xAD, .f3 .ldaAbs), (0xAE, .f3 .ldxAbs)]

/-- Row Bx of the opcode grid of R56. -/
def opcodeRowB : List (Byte × Descriptor) :=
  [(0xB0, .f2 .bcs), (0xB1, .f2 .ldaIny), (0xB4, .f2 .ldyZpx), (0xB5, .f2 .ldaZpx), (0xB6, .f2 .ldxZpy),
   (0xB9, .f3 .ldaAby), (0xBC, .f3 .ldyAbx), (0xBD, .f3 .ldaAbx), (0xBE, .f3 .ldxAby)]

/-- Row Cx of the opcode grid of R56. -/
def opcodeRowC : List (Byte × Descriptor) :=
  [(0xC0, .f2 .cpyImm), (0xC1, .f2 .cmpInx), (0xC4, .f2 .cpyZp), (0xC5, .f2 .cmpZp), (0xC6, .f2 .decZp),
   (0xC8, .f1 .iny), (0xC9, .f2 .cmpImm), (0xCA, .f1 .dex), (0xCC, .f3 .cpyAbs), (0xCD, .f3 .cmpAbs),
   (0xCE, .f3 .decAbs)]

/-- Row Dx of the opcode grid of R56. -/
def opcodeRowD : List (Byte × Descriptor) :=
  [(0xD0, .f2 .bne), (0xD1, .f2 .cmpIny), (0xD5, .f2 .cmpZpx), (0xD6, .f2 .decZpx), (0xD8, .f1 .cld),
   (0xD9, .f3 .cmpAby), (0xDD, .f3 .cmpAbx), (0xDE, .f3 .decAbx)]

/-- Row Ex of the opcode grid of R56. -/
def opcodeRowE : List (Byte × Descriptor) :=
  [(0xE0, .f2 .cpxImm), (0xE1, .f2 .sbcInx), (0xE4, .f2 .cpxZp), (0xE5, .f2 .sbcZp), (0xE6, .f2 .incZp),
   (0xE8, .f1 .inx), (0xE9, .f2 .sbcImm), (0xEA, .f1 .nop), (0xEC, .f3 .cpxAbs), (0xED, .f3 .sbcAbs),
   (0xEE, .f3 .incAbs)]

/-- Row Fx of the opcode grid of R56. -/
def opcodeRowF : List (Byte × Descriptor) :=
  [(0xF0, .f2 .beq), (0xF1, .f2 .sbcIny), (0xF5, .f2 .sbcZpx), (0xF6, .f2 .incZpx), (0xF9, .f3 .sbcAby),
   (0xFD, .f3 .sbcAbx), (0xFE, .f3 .incAbx), (0xFF, .f1 .hlt)]

/-- The opcode grid of R56, a row per high nibble of the opcode byte. -/
def opcodeRow : Nat → List (Byte × Descriptor)
  | 0 => opcodeRow0
  | 1 => opcodeRow1
  | 2 => opcodeRow2
  | 3 => opcodeRow3
  | 4 => opcodeRow4
  | 5 => opcodeRow5
  | 6 => opcodeRow6
  | 7 => opcodeRow7
  | 8 => opcodeRow8
  | 9 => opcodeRow9
  | 10 => opcodeRowA
  | 11 => opcodeRowB
  | 12 => opcodeRowC
  | 13 => opcodeRowD
  | 14 => opcodeRowE
  | 15 => opcodeRowF
  | _ => []

/-- The 140 legal opcodes, each with its descriptor (R52, R56). -/
def opcodeTable : List (Byte × Descriptor) := (List.range 16).flatMap opcodeRow

/-- Look up the first row whose opcode byte is `op`. -/
def lookupOpcode : List (Byte × Descriptor) → Byte → Option Descriptor
  | [], _ => none
  | (k, d) :: rest, op => if k = op then some d else lookupOpcode rest op

/-- The descriptor of an opcode byte, found in its row of the grid; "An opcode with no descriptor is illegal" (R52, R57). -/
def descriptor (op : Byte) : Option Descriptor := lookupOpcode (opcodeRow (op.toNat / 16)) op

/-- Why bytes are no instruction: byte 0 is one of the 116 illegal values (R57), or the bytes end early. -/
inductive Reject where
  | illegalOpcode (op : Byte)
  | noOpcode
  | operandMissing (op : Byte)
  deriving DecidableEq, Repr

/-- Decode the instruction at the front of a list of bytes, with the bytes left over (R53, R54). The legality check comes
before any operand byte is looked at. -/
def decode : List Byte → Except Reject (Instr × List Byte)
  | [] => .error .noOpcode
  | op :: rest =>
    match descriptor op, rest with
    | none, _                       => .error (.illegalOpcode op)
    | some (.f1 i), _               => .ok (i, rest)
    | some (.f2 make), n :: rest'   => .ok (make n, rest')
    | some (.f3 make), l :: h :: rest' => .ok (make (join h l), rest')
    | some (.f2 _), []              => .error (.operandMissing op)
    | some (.f3 _), []              => .error (.operandMissing op)
    | some (.f3 _), [_]             => .error (.operandMissing op)

/-- The opcode byte of an instruction (R56, the mnemonic-by-mode matrix). -/
def Instr.opcode : Instr → Byte
  | .adcImm _ => 0x69
  | .adcZp _ => 0x65
  | .adcZpx _ => 0x75
  | .adcAbs _ => 0x6D
  | .adcAbx _ => 0x7D
  | .adcAby _ => 0x79
  | .adcInx _ => 0x61
  | .adcIny _ => 0x71
  | .sbcImm _ => 0xE9
  | .sbcZp _ => 0xE5
  | .sbcZpx _ => 0xF5
  | .sbcAbs _ => 0xED
  | .sbcAbx _ => 0xFD
  | .sbcAby _ => 0xF9
  | .sbcInx _ => 0xE1
  | .sbcIny _ => 0xF1
  | .andImm _ => 0x29
  | .andZp _ => 0x25
  | .andZpx _ => 0x35
  | .andAbs _ => 0x2D
  | .andAbx _ => 0x3D
  | .andAby _ => 0x39
  | .andInx _ => 0x21
  | .andIny _ => 0x31
  | .oraImm _ => 0x09
  | .oraZp _ => 0x05
  | .oraZpx _ => 0x15
  | .oraAbs _ => 0x0D
  | .oraAbx _ => 0x1D
  | .oraAby _ => 0x19
  | .oraInx _ => 0x01
  | .oraIny _ => 0x11
  | .eorImm _ => 0x49
  | .eorZp _ => 0x45
  | .eorZpx _ => 0x55
  | .eorAbs _ => 0x4D
  | .eorAbx _ => 0x5D
  | .eorAby _ => 0x59
  | .eorInx _ => 0x41
  | .eorIny _ => 0x51
  | .aslAcc => 0x0A
  | .aslZp _ => 0x06
  | .aslZpx _ => 0x16
  | .aslAbs _ => 0x0E
  | .aslAbx _ => 0x1E
  | .lsrAcc => 0x4A
  | .lsrZp _ => 0x46
  | .lsrZpx _ => 0x56
  | .lsrAbs _ => 0x4E
  | .lsrAbx _ => 0x5E
  | .rolAcc => 0x2A
  | .rolZp _ => 0x26
  | .rolZpx _ => 0x36
  | .rolAbs _ => 0x2E
  | .rolAbx _ => 0x3E
  | .rorAcc => 0x6A
  | .rorZp _ => 0x66
  | .rorZpx _ => 0x76
  | .rorAbs _ => 0x6E
  | .rorAbx _ => 0x7E
  | .cmpImm _ => 0xC9
  | .cmpZp _ => 0xC5
  | .cmpZpx _ => 0xD5
  | .cmpAbs _ => 0xCD
  | .cmpAbx _ => 0xDD
  | .cmpAby _ => 0xD9
  | .cmpInx _ => 0xC1
  | .cmpIny _ => 0xD1
  | .cpxImm _ => 0xE0
  | .cpxZp _ => 0xE4
  | .cpxAbs _ => 0xEC
  | .cpyImm _ => 0xC0
  | .cpyZp _ => 0xC4
  | .cpyAbs _ => 0xCC
  | .incZp _ => 0xE6
  | .incZpx _ => 0xF6
  | .incAbs _ => 0xEE
  | .incAbx _ => 0xFE
  | .decZp _ => 0xC6
  | .decZpx _ => 0xD6
  | .decAbs _ => 0xCE
  | .decAbx _ => 0xDE
  | .inx => 0xE8
  | .dex => 0xCA
  | .iny => 0xC8
  | .dey => 0x88
  | .bcc _ => 0x90
  | .bcs _ => 0xB0
  | .beq _ => 0xF0
  | .bne _ => 0xD0
  | .bmi _ => 0x30
  | .bpl _ => 0x10
  | .jmp _ => 0x4C
  | .jsr _ => 0x20
  | .rts => 0x60
  | .pha => 0x48
  | .pla => 0x68
  | .tax => 0xAA
  | .tay => 0xA8
  | .txa => 0x8A
  | .tya => 0x98
  | .txs => 0x9A
  | .clc => 0x18
  | .sec => 0x38
  | .cli => 0x58
  | .sei => 0x78
  | .cld => 0xD8
  | .nop => 0xEA
  | .hlt => 0xFF
  | .ldaImm _ => 0xA9
  | .ldaZp _ => 0xA5
  | .ldaZpx _ => 0xB5
  | .ldaAbs _ => 0xAD
  | .ldaAbx _ => 0xBD
  | .ldaAby _ => 0xB9
  | .ldaInx _ => 0xA1
  | .ldaIny _ => 0xB1
  | .ldxImm _ => 0xA2
  | .ldxZp _ => 0xA6
  | .ldxZpy _ => 0xB6
  | .ldxAbs _ => 0xAE
  | .ldxAby _ => 0xBE
  | .ldyImm _ => 0xA0
  | .ldyZp _ => 0xA4
  | .ldyZpx _ => 0xB4
  | .ldyAbs _ => 0xAC
  | .ldyAbx _ => 0xBC
  | .staZp _ => 0x85
  | .staZpx _ => 0x95
  | .staAbs _ => 0x8D
  | .staAbx _ => 0x9D
  | .staAby _ => 0x99
  | .staInx _ => 0x81
  | .staIny _ => 0x91
  | .stxZp _ => 0x86
  | .stxZpy _ => 0x96
  | .stxAbs _ => 0x8E
  | .styZp _ => 0x84
  | .styZpx _ => 0x94
  | .styAbs _ => 0x8C

/-- The operand bytes of a memory form in ascending address order (R51): `operand8`, or `operand16` low byte first. -/
def MemForm.operandBytes : MemForm → List Byte
  | .zeropage n | .zeropageX n | .zeropageY n | .indirectX n | .indirectY n => [n]
  | .absolute w | .absoluteX w | .absoluteY w => [lo w, hi w]

/-- The operand bytes of a form (R51). -/
def Form.operandBytes : Form → List Byte
  | .implied | .accumulator => []
  | .immediate n | .relative n => [n]
  | .memory f => f.operandBytes

/-- The bytes of an instruction in ascending address order (R51, R56). -/
def encode (i : Instr) : List Byte := i.opcode :: i.form.operandBytes

/-- The longest instruction's three bytes of a table word: bit 0 of `w` is the least significant bit of the first byte, and
every bit at or above `nbits` is 0. -/
def tableBytes (nbits w : Nat) : List Byte :=
  let v := w % 2 ^ nbits
  [BitVec.ofNat 8 v, BitVec.ofNat 8 (v / 256), BitVec.ofNat 8 (v / 65536)]

/-- The instruction the decoder reads from an instruction whose bits are `w`. -/
def decodeTableWord (nbits w : Nat) : Option Instr :=
  match decode (tableBytes nbits w) with
  | .ok (i, _) => some i
  | .error _   => none

end Sys2Proof
end

