-- ==== Sys2Proof/Machine/State.lean ====
section
/-! DEFINITION. The state of the machine: all that 10_state.md gives it, the platform it is attached to, and what its
interfaces have shown (00_scope.md R7). Plain data. -/

namespace Sys2Proof.Machine

/-- `run`, the core's run state (10_state.md R24). RUNNING, HALTED and FAULTED are the spec's three. The other two name
situations other rules give (log entry 6, DESIGN CHOICE): `stopped`, the host took the core out of RUNNING (R176), and
`awaitingReset`, no Reset has happened yet (R182, U17). -/
inductive RunState where
  | running
  | halted
  | faulted
  | stopped
  | awaitingReset
  deriving DecidableEq, Repr

/-- Whether a bus access is a read or a write (R162: "whether it was a read or a write"). -/
inductive Dir where
  | read
  | write
  deriving DecidableEq, Repr

/-- The three faults of 60_exceptions.md R160, with the address each records where one is involved. -/
inductive CoreFault where
  | illegalOpcode
  | busFault (dir : Dir) (addr : Address)
  | indirectXPageCross
  deriving DecidableEq, Repr

/-- A bus access that no binding covers, whose answer on the Bus read and Bus write interfaces is "miss" (R7, R35): the address, and
the byte of a write. -/
inductive Miss where
  | read  (addr : Address)
  | write (addr : Address) (data : Byte)
  deriving DecidableEq, Repr

/-- What the Fault interface carries (R7, R160, R164): the fault, `pc_instr` (absent in Reset, where no instruction is being
stepped; log entry 8) and the opcode byte (absent when the fault is on the opcode fetch itself or in Reset, R162). -/
structure FaultRecord where
  fault   : CoreFault
  pcInstr : Option Address
  opcode  : Option Byte
  deriving DecidableEq, Repr

/-- The decoded-instruction latch (R25), filled as Decode goes on (R53): nothing between Steps and in Reset; `pc_instr` while
the opcode is fetched; the opcode byte too while its operand bytes are read; then the decoded instruction, whose descriptor and
operand field are those of `instr`. -/
inductive Latch where
  | empty
  | fetching (pcInstr : Address)
  | fetched  (pcInstr : Address) (opcode : Byte)
  | decoded  (pcInstr : Address) (opcode : Byte) (instr : Instr)
  deriving DecidableEq, Repr

/-- Memory contents, as a list of cells in strictly rising key order with no cell equal to what an unlisted key reads as. The
key of local address `l` of backend number `k` is `k * 65536 + l` (log entry 12), so on a platform with one backend at base 0 it is the bus
address. -/
abbrev Memory := List Host.Cell

/-- What the monitor is shown at the observation point (60_exceptions.md R170): the decoded instruction, which is what the latch
holds, with "full read access to CPU/bus state" (R171) as it stood after decode and before any mutation: every field of State
but the monitor's own. `platform` places the keys of `mem` on the bus. What it shows of a ROM that a write has reached is the
model's choice (DESIGN CHOICE, log entry 18): `mem` has the bytes stored before that write, which the spec then leaves open
(R45, U9), and `disturbed` names the backend whose bytes are open. Showing the logs `bus` and `missed` is the model's choice too
(log entry 18). -/
structure Observation where
  instr       : Instr
  opcode      : Byte
  pc          : Address
  ac          : Byte
  x           : Byte
  y           : Byte
  sp          : Byte
  sr          : Byte
  run         : RunState
  haltLatch   : Byte
  faultRecord : Option FaultRecord
  platform    : Platform
  mem         : Memory
  disturbed   : List Nat
  bus         : List Access
  missed      : List Miss
  deriving DecidableEq, Repr

/-- The state of the core and of the platform it is attached to.

Registers: `pc` (R11), `ac`, `x`, `y` (R12), `sp` (R13), `sr` (R14). Control: `run` (R24), `latch` (R25), `haltLatch`
(R26), `faultRecord` (R164, R181). Platform: `platform` (R32), `mem` (R45). Model's own fields: `disturbed`, the ROM backends
that a write has reached, whose contents the spec then leaves open (R45, log entry 5); `bus`, every access delivered so far,
newest first (R3, R7, R44, log entry 11); `missed`, every access that no binding covered, newest first (R7, R35, log entry 19);
`monitor`, absent, or attached with every observation it was shown, newest first (R170). -/
structure State where
  pc          : Address
  ac          : Byte
  x           : Byte
  y           : Byte
  sp          : Byte
  sr          : Byte
  run         : RunState
  latch       : Latch
  haltLatch   : Byte
  faultRecord : Option FaultRecord
  platform    : Platform
  mem         : Memory
  disturbed   : List Nat
  bus         : List Access
  missed      : List Miss
  monitor     : Option (List Observation)
  deriving DecidableEq, Repr

/-- Why no Step is taken: the state is stuck (R24, R167, R190; U10, U17). All are raised by `step` alone, never by an
instruction: a fault of the core (R160) is not one of these, since R166 describes what it does, and the Step that raises it ends
in a next state (log entry 9). SAFE: the spec gives a Step outside RUNNING no behaviour. -/
inductive Fault where
  /-- `step` in HALTED: a HLT ended the run (R141). Safe. -/
  | haltedCore
  /-- `step` in FAULTED: one of the three faults ended the run (R166, R167). Safe. -/
  | faultedCore
  /-- `step` after the host stopped the core (R176). Safe. -/
  | stoppedCore
  /-- `step` before the first Reset (R182). Safe. -/
  | coreNotReset
  deriving DecidableEq, Repr

/-- Why the model gives no behaviour. -/
inductive Refusal where
  /-- Raised by `exec` for an instruction that has no meaning yet. Safe. No arm uses it. -/
  | notModelled (mnemonic : String)
  /-- Raised by `step` and `hostReset` when the bindings are not well formed: "the spec refuses such a configuration" (R46,
  D25, U16). Safe. -/
  | illFormedBindings
  deriving DecidableEq, Repr

/-- The machine right after a Reset (R27, R180) on the platform of log entry 4 with memory that lists nothing: PC is the word
at 0xFFFC, which reads 0x0000 there; SR is 0x34; run is RUNNING; and the two vector reads have been delivered. AC, X, Y and SP
are "unchanged by Reset; unspecified after power-on": the model takes 0x00 (log entry 1, DESIGN CHOICE). The halt latch is not
meaningful yet (0x00, log entry 2, DESIGN CHOICE), no fault is recorded (log entry 17), and no monitor is
attached (log entry 7). -/
def State.reset : State :=
  { pc          := 0x0000
    ac          := 0x00
    x           := 0x00
    y           := 0x00
    sp          := 0x00
    sr          := 0x34
    run         := .running
    latch       := .empty
    haltLatch   := 0x00
    faultRecord := none
    platform    := Config.ramPlatform
    mem         := []
    disturbed   := []
    bus         := [.read 0xFFFD 0 0xFFFD 0x00, .read 0xFFFC 0 0xFFFC 0x00]
    missed      := []
    monitor     := none }

end Sys2Proof.Machine
end

