-- ==== Sys2Proof/Machine/Ops.lean ====
section
/-! DEFINITION. The named operations over registers, bus and memory (00_scope.md R6): the bus look-up and the two access
primitives (20_memory.md), the stack primitives (10_state.md R28, R29), and raising a fault (60_exceptions.md R166), which is
one shared operation. Every operation threads the state, so the accesses happen in the order the rules write them (R40). -/

namespace Sys2Proof.Machine

/-- What one step or one instruction answers. -/
abbrev Result := Host.Outcome State Fault Refusal

/-! ## Running an operation -/

/-- How an operation of a rule ends: with a value, or with a fault raised, after which no later statement of the Step runs
(R6, R166). Both leave a state. -/
inductive Res (α : Type) where
  | ok     (value : α) (s : State)
  | raised (s : State)
  deriving DecidableEq, Repr

/-- Run the next statement of a rule, unless a fault has been raised. -/
def Res.andThen {α β : Type} (r : Res α) (next : α → State → Res β) : Res β :=
  match r with
  | .ok v s   => next v s
  | .raised s => .raised s

/-- The state an instruction leaves. A raised fault leaves one too: entering FAULTED is an effect the spec describes (R166). -/
def Res.outcome (r : Res Unit) : Result :=
  match r with
  | .ok _ s   => .next s
  | .raised s => .next s

/-! ## Registers -/

/-- The 8-bit registers of `x[r]` (R6). -/
inductive Reg where
  | ac | x | y | sp
  deriving DecidableEq, Repr

/-- `x[r]` (R6, R10: each name is one storage cell). -/
def State.reg (s : State) : Reg → Byte
  | .ac => s.ac
  | .x  => s.x
  | .y  => s.y
  | .sp => s.sp

/-- `x[r] <- v` (R6). -/
def State.setReg (s : State) (r : Reg) (v : Byte) : State :=
  match r with
  | .ac => { s with ac := v }
  | .x  => { s with x := v }
  | .y  => { s with y := v }
  | .sp => { s with sp := v }

/-- `pc <- t` (R6). -/
def State.setPc (s : State) (t : Address) : State := { s with pc := t }

/-- `SR <- v` (R6). -/
def State.setSr (s : State) (v : Byte) : State := { s with sr := v }

/-- The decoded-instruction latch takes a value (R25). -/
def State.setLatch (s : State) (l : Latch) : State := { s with latch := l }

/-! ## Taking a fault -/

/-- `pc_instr` of the instruction being stepped (R6, R164). -/
def Latch.pcInstr? : Latch → Option Address
  | .empty         => none
  | .fetching p    => some p
  | .fetched p _   => some p
  | .decoded p _ _ => some p

/-- The opcode byte, once it was fetched (R162). -/
def Latch.opcode? : Latch → Option Byte
  | .empty          => none
  | .fetching _     => none
  | .fetched _ op   => some op
  | .decoded _ op _ => some op

/-- The codes of the Fault interface (R160). -/
def CoreFault.code : CoreFault → Nat
  | .illegalOpcode      => 1
  | .busFault _ _       => 2
  | .indirectXPageCross => 3

/-- The address a fault records (R160: the missed address; 0x00FF for IndirectXPageCross). -/
def CoreFault.address? : CoreFault → Option Address
  | .illegalOpcode      => none
  | .busFault _ a       => some a
  | .indirectXPageCross => some 0x00FF

/-- Why a fault is raised: one of the three causes of R160, BusFault with the access that missed. -/
inductive Cause where
  | illegalOpcode
  | busFault (m : Miss)
  | indirectXPageCross
  deriving DecidableEq, Repr

/-- What the Fault interface says of a missed access: "the missed address, and whether it was a read or a write" (R162). -/
def Miss.fault : Miss → CoreFault
  | .read a    => .busFault .read a
  | .write a _ => .busFault .write a

/-- The fault a cause raises (R160). -/
def Cause.fault : Cause → CoreFault
  | .illegalOpcode      => .illegalOpcode
  | .busFault m         => m.fault
  | .indirectXPageCross => .indirectXPageCross

/-- The missed accesses after a fault, from those before it: the Bus interface has answered "miss" for the access that is the
cause (R7), if the cause is one. -/
def Cause.missed (c : Cause) (before : List Miss) : List Miss :=
  match c with
  | .busFault m => m :: before
  | _           => before

/-- Fault entry (R166): `run <- FAULTED` and the Fault interface carries the fault with its context (R164); an access that missed
is on record with its byte (R7, log entry 19). Nothing else changes: no register is pushed, no vector is read, `pc` is not
redirected and SR is not changed. -/
def State.enterFault (s : State) (c : Cause) : State :=
  { s with
    run := .faulted
    missed := c.missed s.missed
    faultRecord := some { fault := c.fault, pcInstr := s.latch.pcInstr?, opcode := s.latch.opcode? } }

/-- `raise F(info)`: the Step ends at once and the core enters FAULTED (R6, R166). -/
def raise {α : Type} (c : Cause) (s : State) : Res α := .raised (s.enterFault c)

/-! ## Memory cells -/

/-- What a location that nothing has written reads as: 0x00 (DESIGN CHOICE, log entry 4; 95_test_vectors.md takes "memory bytes
not named are 00"). -/
def fillByte : Byte := 0x00

/-- The byte stored under a key. -/
def Memory.read : Memory → Nat → Byte
  | [], _ => fillByte
  | (k, v) :: rest, a => if k = a then v else Memory.read rest a

/-- Store a byte under a key, keeping the canonical form: in key order, and no cell equal to `fillByte`. -/
def Memory.write : Memory → Nat → Byte → Memory
  | [], a, v => if v = fillByte then [] else [(a, v)]
  | (k, w) :: rest, a, v =>
    if a < k then
      if v = fillByte then (k, w) :: rest else (a, v) :: (k, w) :: rest
    else if a = k then
      if v = fillByte then rest else (a, v) :: rest
    else (k, w) :: Memory.write rest a v

/-- The canonical form: keys strictly rising, no cell equal to what an unlisted key reads as. -/
def Memory.wf : Memory → Bool
  | [] => true
  | (k, v) :: rest => rest.all (fun c => decide (k < c.1)) && (decide (v ≠ fillByte) && Memory.wf rest)

/-! ## The bus -/

/-- The backend a bus address is delivered to, and the local address there (R36). -/
structure Place where
  backend   : Nat
  kind      : BackendKind
  localAddr : Nat
  deriving DecidableEq, Repr

/-- The memory key of a place. -/
def Place.key (p : Place) : Nat := p.backend * 65536 + p.localAddr

/-- The linear scan of R32: the first binding, in attachment order, with `base <= a <= base + size - 1`, and the local address
`a - base` in its backend (R36). -/
def routeIn (backends : List Backend) : List Binding → Address → Option Place
  | [], _ => none
  | b :: rest, a =>
    match backends[b.backend]? with
    | none   => routeIn backends rest a
    | some k =>
      if b.base.toNat ≤ a.toNat ∧ a.toNat < b.base.toNat + k.size then
        some { backend := b.backend, kind := k.kind, localAddr := a.toNat - b.base.toNat }
      else routeIn backends rest a

/-- Look a bus address up in the bindings (R32). -/
def route (p : Platform) (a : Address) : Option Place := routeIn p.backends p.bindings a

/-- An address that a binding covers (R35). -/
def State.mapped (s : State) (a : Address) : Bool := (route s.platform a).isSome

/-- Whether reading a place gives the byte stored there: RAM always does (R45), ROM does (R33) until a write has reached it,
whose effect is not specified (R45, log entry 5), and a device never does (R45). -/
def State.holds (s : State) (p : Place) : Bool :=
  match p.kind with
  | .ram    => true
  | .rom    => !s.disturbed.contains p.backend
  | .device => false

/-- The byte a backend answers a read with (R33, R45): the stored byte, or a byte the model does not choose. -/
def State.answer (s : State) (p : Place) : Byte :=
  if s.holds p then Memory.read s.mem p.key else Config.deviceAnswer p.backend p.localAddr s.bus

/-- The state after a read of `a`, delivered to `p`, was answered: the access is on the bus and nothing else has changed. -/
def State.readDone (s : State) (a : Address) (p : Place) : State :=
  { s with bus := .read a p.backend p.localAddr (s.answer p) :: s.bus }

/-- The state after a write of `v` to `a` was delivered to `p` (R34, R45): RAM stores it; what a ROM or a device does with it
is not specified, so it is an event on the bus, and a ROM's contents are open from then on (log entry 5). -/
def State.writeDone (s : State) (a : Address) (p : Place) (v : Byte) : State :=
  match p.kind with
  | .ram    => { s with bus := .write a p.backend p.localAddr v :: s.bus, mem := Memory.write s.mem p.key v }
  | .rom    => { s with bus := .write a p.backend p.localAddr v :: s.bus
                        disturbed := if s.disturbed.contains p.backend then s.disturbed else p.backend :: s.disturbed }
  | .device => { s with bus := .write a p.backend p.localAddr v :: s.bus }

/-- `MemRead(a, 1)` (R33): one read, delivered exactly once, or BusFault (R35). -/
def memRead (a : Address) (s : State) : Res Byte :=
  match route s.platform a with
  | none   => raise (.busFault (.read a)) s
  | some p => .ok (s.answer p) (s.readDone a p)

/-- `MemWrite(a, 1, v)` (R34): one write, delivered exactly once, or BusFault (R35). -/
def memWrite (a : Address) (v : Byte) (s : State) : Res Unit :=
  match route s.platform a with
  | none   => raise (.busFault (.write a v)) s
  | some p => .ok () (s.writeDone a p v)

/-- `MemRead16(a)` (R37): low byte first, then the high byte at `(a + 1) mod 65536`. -/
def memRead16 (a : Address) (s : State) : Res Address :=
  (memRead a s).andThen fun l t =>
  (memRead (a + 1) t).andThen fun h u =>
  .ok (join h l) u

/-- The byte stored at an address, for an address whose reads give it: the model's way to look at one byte of memory without
touching the bus. -/
def State.peek (s : State) (a : Address) : Option Byte :=
  match route s.platform a with
  | none   => none
  | some p => if s.holds p then some (Memory.read s.mem p.key) else none

/-- Put a byte where a read of `a` finds it, without a bus access: how a program image is loaded (R45, "the program image and
data the platform loaded"; log entry 10). No effect where no stored byte is read. -/
def State.poke (s : State) (a : Address) (v : Byte) : State :=
  match route s.platform a with
  | none   => s
  | some p => { s with mem := Memory.write s.mem p.key v }

/-! ## The stack -/

/-- STACK_BASE (R4). -/
def stackBase : Address := 0x0100

/-- The address SP names, `0x0100 + x[SP]`, always in page 1 (R13). -/
def stackAddr (sp : Byte) : Address := stackBase + sp.setWidth 16

/-- `push8(v)` (R28): write at the address SP names, then move SP down. If the write faults, SP is not changed. -/
def push8 (v : Byte) (s : State) : Res Unit :=
  (memWrite (stackAddr s.sp) v s).andThen fun _ t =>
  .ok () (t.setReg .sp (t.sp - 1))

/-- `pull8()` (R29): move SP up, then read the byte it names. If the read faults, SP has already been incremented. -/
def pull8 (s : State) : Res Byte :=
  let t := s.setReg .sp (s.sp + 1)
  memRead (stackAddr t.sp) t

end Sys2Proof.Machine
end

