-- ==== Sys2Proof/Machine/Operands.lean ====
section
/-! DEFINITION. The address-mode resolver (30_encoding.md R62 to R75). -/

namespace Sys2Proof.Machine

/-- `zext_16(v)` (R6). -/
def zext16 (v : Byte) : Address := v.setWidth 16

/-- `sext_16(v)` (R6): `v` if bit 7 is 0, else `v + 0xFF00`. -/
def sext16 (v : Byte) : Address := v.signExtend 16

/-- `EA(mode)` (R65 to R72), computed after `pc` has advanced, with X and Y as they are now. The zero-page modes wrap inside
page 0 (R66, R67), the absolute ones modulo 65536 (R69, R70). indirect,X faults when its pointer would leave page 0, before
either pointer byte is read (R71); indirect,Y has no such check, and its pointer at 0x00FF takes its high byte from 0x0100
(R72, D13). -/
def ea (f : MemForm) (s : State) : Res Address :=
  match f with
  | .zeropage n  => .ok (zext16 n) s
  | .zeropageX n => .ok (zext16 (n + s.x)) s
  | .zeropageY n => .ok (zext16 (n + s.y)) s
  | .absolute w  => .ok w s
  | .absoluteX w => .ok (w + zext16 s.x) s
  | .absoluteY w => .ok (w + zext16 s.y) s
  | .indirectX n =>
    if n + s.x = 0xFF then raise .indirectXPageCross s
    else memRead16 (zext16 (n + s.x)) s
  | .indirectY n =>
    (memRead16 (zext16 n) s).andThen fun base t =>
    .ok (base + zext16 t.y) t

/-- `Operand(mode)` (R74): `operand8` itself in immediate mode, else one data read at the effective address. -/
def operand (src : Source) (s : State) : Res Byte :=
  match src with
  | .immediate n => .ok n s
  | .memory f    => (ea f s).andThen fun a t => memRead a t

/-- A read instruction (R75): resolve the operand, then `act` on it. -/
def readThen (src : Source) (act : Byte → State → State) (s : State) : Result :=
  ((operand src s).andThen fun v t => .ok () (act v t)).outcome

/-- A store instruction (R75): the effective address, then one write of register `r`, and no data read. -/
def storeReg (f : MemForm) (r : Reg) (s : State) : Result :=
  ((ea f s).andThen fun a t => memWrite a (t.reg r) t).outcome

/-- A read-modify-write instruction (R75, R90): the effective address once, one read and one write there, and then the flags,
which `flags` sets from the old and the new byte. `compute` gives the new byte. -/
def update (f : MemForm) (compute : Byte → State → Byte) (flags : Byte → Byte → State → State) (s : State) : Result :=
  ((ea f s).andThen fun a t =>
   (memRead a t).andThen fun v u =>
   (memWrite a (compute v u) u).andThen fun _ w =>
   .ok () (flags v (compute v u) w)).outcome

end Sys2Proof.Machine
end

