-- ==== Sys2Proof/Machine/Flags.lean ====
section
/-! DEFINITION. The status register SR and the ALU and flag unit (10_state.md R14 to R23, 40_arithmetic.md R80 to R82,
42_shift_rotate.md R90 to R94, 43_compare.md R95). SR is one byte of plain storage bits, read and written a flag at a time. -/

namespace Sys2Proof.Machine

/-- The eight bits of SR (R14). -/
inductive Flag where
  | C | Z | I | D | B | U | V | N
  deriving DecidableEq, Repr

/-- The position of each bit in SR (R14, D4). -/
def Flag.bit : Flag → Nat
  | .C => 0
  | .Z => 1
  | .I => 2
  | .D => 3
  | .B => 4
  | .U => 5
  | .V => 6
  | .N => 7

/-- `SR.f` (R6). -/
def flag (sr : Byte) (f : Flag) : Bool := sr.getLsbD f.bit

/-- SR with one bit written and the others as they were (R14). -/
def putFlag (sr : Byte) (f : Flag) (b : Bool) : Byte :=
  if b then sr ||| (1#8 <<< f.bit) else sr &&& ~~~(1#8 <<< f.bit)

/-- `SR.f <- b` (R6). -/
def State.setFlag (s : State) (f : Flag) (b : Bool) : State := s.setSr (putFlag s.sr f b)

/-- `SetZN(v)` (R23): Z and N from `v`, always both, and nothing else. -/
def setZN (v : Byte) (s : State) : State := (s.setFlag .Z (decide (v = 0))).setFlag .N v.msb

/-! ## Arithmetic -/

/-- The 9-bit sum of ADC, `x[AC] + M + SR.C` (R80). -/
def adcSum (a m : Byte) (c : Bool) : Nat := a.toNat + m.toNat + c.toNat

/-- ADC (R80): C is bit 8 of the sum, AC its low 8 bits, Z and N from the new AC. V is not written (D6) and D is not read
(D22). -/
def adc (m : Byte) (s : State) : State :=
  let sum := adcSum s.ac m (flag s.sr .C)
  let r := BitVec.ofNat 8 sum
  setZN r ((s.setFlag .C (sum.testBit 8)).setReg .ac r)

/-- The signed intermediate of SBC, `x[AC] - M - (1 - SR.C)` (R81). -/
def sbcDiff (a m : Byte) (c : Bool) : Int := (a.toNat : Int) - (m.toNat : Int) - (1 - (c.toNat : Int))

/-- SBC (R81): AC is the low 8 bits of the intermediate in two's complement, C is 1 when it is not negative (D5), Z and N
from the new AC. V is not written (D6) and D is not read. -/
def sbc (m : Byte) (s : State) : State :=
  let t := sbcDiff s.ac m (flag s.sr .C)
  let r := BitVec.ofInt 8 t
  setZN r ((s.setReg .ac r).setFlag .C (decide (0 ≤ t)))

/-! ## Logic -/

/-- The logical instructions (R85 to R87): AC takes the combination of AC and the operand, Z and N from the new AC. -/
def logic (op : Byte → Byte → Byte) (m : Byte) (s : State) : State :=
  setZN (op s.ac m) (s.setReg .ac (op s.ac m))

/-! ## Shifts and rotates: `f` of R90, as the result and the carry-out -/

/-- `r` of ASL (R91): shift left, 0 in at bit 0. -/
def aslResult (v : Byte) (_c : Bool) : Byte := v <<< 1

/-- `r` of LSR (R92): shift right, 0 in at bit 7. -/
def lsrResult (v : Byte) (_c : Bool) : Byte := v >>> 1

/-- `r` of ROL (R93): shift left, the carry in at bit 0. -/
def rolResult (v : Byte) (c : Bool) : Byte := (v <<< 1) ||| (if c then 0x01 else 0x00)

/-- `r` of ROR (R94): shift right, the carry in at bit 7. -/
def rorResult (v : Byte) (c : Bool) : Byte := (v >>> 1) ||| (if c then 0x80 else 0x00)

/-- The bit a left shift or rotate shifts out, `k <- v[7]` (R91, R93). -/
def leftOut (v : Byte) : Bool := v.getLsbD 7

/-- The bit a right shift or rotate shifts out, `k <- v[0]` (R92, R94). -/
def rightOut (v : Byte) : Bool := v.getLsbD 0

/-- The end of R90 for both forms: `SR.C <- k`, then `SetZN(r)`. -/
def shiftFlags (out : Byte → Bool) (old new : Byte) (s : State) : State :=
  setZN new (s.setFlag .C (out old))

/-- R90 in accumulator mode: AC is read and written, with no bus access. -/
def shiftAcc (result : Byte → Bool → Byte) (out : Byte → Bool) (s : State) : Result :=
  .next (shiftFlags out s.ac (result s.ac (flag s.sr .C)) (s.setReg .ac (result s.ac (flag s.sr .C))))

/-- R90 in a memory mode: one read and one write at the effective address, then the flags; AC is not touched. -/
def shiftMem (f : MemForm) (result : Byte → Bool → Byte) (out : Byte → Bool) (s : State) : Result :=
  update f (fun v t => result v (flag t.sr .C)) (shiftFlags out) s

/-! ## Compare -/

/-- The common operation of the compares (R95): C is `x[r] >= M` unsigned, Z and N from the 8-bit difference; no register is
written. -/
def compareReg (r : Reg) (m : Byte) (s : State) : State :=
  setZN (s.reg r - m) (s.setFlag .C (decide (m.toNat ≤ (s.reg r).toNat)))

/-! ## Loads, increments and transfers -/

/-- A register takes a byte, and Z and N with it (R102 to R105, R126 to R130, R145 to R147). -/
def putReg (r : Reg) (v : Byte) (s : State) : State := setZN v (s.setReg r v)

/-- The flags of INC and DEC (R100, R101): Z and N from the new byte. -/
def countFlags (_old new : Byte) (s : State) : State := setZN new s

/-! ## Branches -/

/-- The common operation of the branches (R110): if the condition holds, `pc` moves by the signed offset (R73). -/
def branch (cond : Bool) (n : Byte) (s : State) : Result :=
  .next (if cond then s.setPc (s.pc + sext16 n) else s)

end Sys2Proof.Machine
end

