-- ==== Sys2Proof/Machine/Arithmetic.lean ====
section
/-! DEFINITION. The meanings of spec/40_arithmetic.md: ADC, SBC. Each runs after `pc` has advanced (R55). -/

namespace Sys2Proof.Machine

/-- ADC, immediate (R80): add memory to accumulator with carry. -/
def execAdcImm (n : Byte) (s : State) : Result := readThen (.immediate n) adc s

/-- ADC, zeropage (R80): add memory to accumulator with carry. -/
def execAdcZp (n : Byte) (s : State) : Result := readThen (.memory (.zeropage n)) adc s

/-- ADC, zeropage,X (R80): add memory to accumulator with carry. -/
def execAdcZpx (n : Byte) (s : State) : Result := readThen (.memory (.zeropageX n)) adc s

/-- ADC, absolute (R80): add memory to accumulator with carry. -/
def execAdcAbs (w : Address) (s : State) : Result := readThen (.memory (.absolute w)) adc s

/-- ADC, absolute,X (R80): add memory to accumulator with carry. -/
def execAdcAbx (w : Address) (s : State) : Result := readThen (.memory (.absoluteX w)) adc s

/-- ADC, absolute,Y (R80): add memory to accumulator with carry. -/
def execAdcAby (w : Address) (s : State) : Result := readThen (.memory (.absoluteY w)) adc s

/-- ADC, indirect,X (R80): add memory to accumulator with carry. -/
def execAdcInx (n : Byte) (s : State) : Result := readThen (.memory (.indirectX n)) adc s

/-- ADC, indirect,Y (R80): add memory to accumulator with carry. -/
def execAdcIny (n : Byte) (s : State) : Result := readThen (.memory (.indirectY n)) adc s

/-- SBC, immediate (R81): subtract memory from accumulator with borrow. -/
def execSbcImm (n : Byte) (s : State) : Result := readThen (.immediate n) sbc s

/-- SBC, zeropage (R81): subtract memory from accumulator with borrow. -/
def execSbcZp (n : Byte) (s : State) : Result := readThen (.memory (.zeropage n)) sbc s

/-- SBC, zeropage,X (R81): subtract memory from accumulator with borrow. -/
def execSbcZpx (n : Byte) (s : State) : Result := readThen (.memory (.zeropageX n)) sbc s

/-- SBC, absolute (R81): subtract memory from accumulator with borrow. -/
def execSbcAbs (w : Address) (s : State) : Result := readThen (.memory (.absolute w)) sbc s

/-- SBC, absolute,X (R81): subtract memory from accumulator with borrow. -/
def execSbcAbx (w : Address) (s : State) : Result := readThen (.memory (.absoluteX w)) sbc s

/-- SBC, absolute,Y (R81): subtract memory from accumulator with borrow. -/
def execSbcAby (w : Address) (s : State) : Result := readThen (.memory (.absoluteY w)) sbc s

/-- SBC, indirect,X (R81): subtract memory from accumulator with borrow. -/
def execSbcInx (n : Byte) (s : State) : Result := readThen (.memory (.indirectX n)) sbc s

/-- SBC, indirect,Y (R81): subtract memory from accumulator with borrow. -/
def execSbcIny (n : Byte) (s : State) : Result := readThen (.memory (.indirectY n)) sbc s

end Sys2Proof.Machine
end

