-- ==== Sys2Proof/Machine/Branch.lean ====
section
/-! DEFINITION. The meanings of spec/45_branch.md: BCC, BCS, BEQ, BNE, BMI, BPL. Each runs after `pc` has advanced (R55). -/

namespace Sys2Proof.Machine

/-- BCC (R111): branch if carry clear. -/
def execBcc (n : Byte) (s : State) : Result := branch (!flag s.sr .C) n s

/-- BCS (R112): branch if carry set. -/
def execBcs (n : Byte) (s : State) : Result := branch (flag s.sr .C) n s

/-- BEQ (R113): branch if equal. -/
def execBeq (n : Byte) (s : State) : Result := branch (flag s.sr .Z) n s

/-- BNE (R114): branch if not equal. -/
def execBne (n : Byte) (s : State) : Result := branch (!flag s.sr .Z) n s

/-- BMI (R115): branch if minus. -/
def execBmi (n : Byte) (s : State) : Result := branch (flag s.sr .N) n s

/-- BPL (R116): branch if plus. -/
def execBpl (n : Byte) (s : State) : Result := branch (!flag s.sr .N) n s

end Sys2Proof.Machine
end

