-- ==== Sys2Proof/Machine/Compare.lean ====
section
/-! DEFINITION. The meanings of spec/43_compare.md: CMP, CPX, CPY. Each runs after `pc` has advanced (R55). -/

namespace Sys2Proof.Machine

/-- CMP, immediate (R96): compare memory with accumulator. -/
def execCmpImm (n : Byte) (s : State) : Result := readThen (.immediate n) (compareReg .ac) s

/-- CMP, zeropage (R96): compare memory with accumulator. -/
def execCmpZp (n : Byte) (s : State) : Result := readThen (.memory (.zeropage n)) (compareReg .ac) s

/-- CMP, zeropage,X (R96): compare memory with accumulator. -/
def execCmpZpx (n : Byte) (s : State) : Result := readThen (.memory (.zeropageX n)) (compareReg .ac) s

/-- CMP, absolute (R96): compare memory with accumulator. -/
def execCmpAbs (w : Address) (s : State) : Result := readThen (.memory (.absolute w)) (compareReg .ac) s

/-- CMP, absolute,X (R96): compare memory with accumulator. -/
def execCmpAbx (w : Address) (s : State) : Result := readThen (.memory (.absoluteX w)) (compareReg .ac) s

/-- CMP, absolute,Y (R96): compare memory with accumulator. -/
def execCmpAby (w : Address) (s : State) : Result := readThen (.memory (.absoluteY w)) (compareReg .ac) s

/-- CMP, indirect,X (R96): compare memory with accumulator. -/
def execCmpInx (n : Byte) (s : State) : Result := readThen (.memory (.indirectX n)) (compareReg .ac) s

/-- CMP, indirect,Y (R96): compare memory with accumulator. -/
def execCmpIny (n : Byte) (s : State) : Result := readThen (.memory (.indirectY n)) (compareReg .ac) s

/-- CPX, immediate (R97): compare memory with X. -/
def execCpxImm (n : Byte) (s : State) : Result := readThen (.immediate n) (compareReg .x) s

/-- CPX, zeropage (R97): compare memory with X. -/
def execCpxZp (n : Byte) (s : State) : Result := readThen (.memory (.zeropage n)) (compareReg .x) s

/-- CPX, absolute (R97): compare memory with X. -/
def execCpxAbs (w : Address) (s : State) : Result := readThen (.memory (.absolute w)) (compareReg .x) s

/-- CPY, immediate (R98): compare memory with Y. -/
def execCpyImm (n : Byte) (s : State) : Result := readThen (.immediate n) (compareReg .y) s

/-- CPY, zeropage (R98): compare memory with Y. -/
def execCpyZp (n : Byte) (s : State) : Result := readThen (.memory (.zeropage n)) (compareReg .y) s

/-- CPY, absolute (R98): compare memory with Y. -/
def execCpyAbs (w : Address) (s : State) : Result := readThen (.memory (.absolute w)) (compareReg .y) s

end Sys2Proof.Machine
end

