-- ==== Sys2Proof/Machine/FlagNopHalt.lean ====
section
/-! DEFINITION. The meanings of spec/48_flag_nop_halt.md: CLC, SEC, CLI, SEI, CLD, NOP, HLT. Each runs after `pc` has advanced (R55). -/

namespace Sys2Proof.Machine

/-- CLC (R135): clear carry. -/
def execClc (s : State) : Result := .next (s.setFlag .C false)

/-- SEC (R136): set carry. -/
def execSec (s : State) : Result := .next (s.setFlag .C true)

/-- CLI (R137): clear interrupt-disable (D7). -/
def execCli (s : State) : Result := .next (s.setFlag .I false)

/-- SEI (R138): set interrupt-disable (D7). -/
def execSei (s : State) : Result := .next (s.setFlag .I true)

/-- CLD (R139): clear decimal. -/
def execCld (s : State) : Result := .next (s.setFlag .D false)

/-- NOP (R140): no state change beyond the advance of `pc`. -/
def execNop (s : State) : Result := .next s

/-- HLT (R141): the halt extension; the halt latch takes X (R26) and the core enters HALTED (R24). -/
def execHlt (s : State) : Result := .next { s with haltLatch := s.x, run := .halted }

end Sys2Proof.Machine
end

