-- ==== Sys2Proof/Machine/IncDec.lean ====
section
/-! DEFINITION. The meanings of spec/44_incdec.md: INC, DEC, INX, DEX, INY, DEY. Each runs after `pc` has advanced (R55). -/

namespace Sys2Proof.Machine

/-- INC, zeropage (R100): increment memory. -/
def execIncZp (n : Byte) (s : State) : Result := update (.zeropage n) (fun v _ => v + 1) countFlags s

/-- INC, zeropage,X (R100): increment memory. -/
def execIncZpx (n : Byte) (s : State) : Result := update (.zeropageX n) (fun v _ => v + 1) countFlags s

/-- INC, absolute (R100): increment memory. -/
def execIncAbs (w : Address) (s : State) : Result := update (.absolute w) (fun v _ => v + 1) countFlags s

/-- INC, absolute,X (R100): increment memory. -/
def execIncAbx (w : Address) (s : State) : Result := update (.absoluteX w) (fun v _ => v + 1) countFlags s

/-- DEC, zeropage (R101): decrement memory. -/
def execDecZp (n : Byte) (s : State) : Result := update (.zeropage n) (fun v _ => v - 1) countFlags s

/-- DEC, zeropage,X (R101): decrement memory. -/
def execDecZpx (n : Byte) (s : State) : Result := update (.zeropageX n) (fun v _ => v - 1) countFlags s

/-- DEC, absolute (R101): decrement memory. -/
def execDecAbs (w : Address) (s : State) : Result := update (.absolute w) (fun v _ => v - 1) countFlags s

/-- DEC, absolute,X (R101): decrement memory. -/
def execDecAbx (w : Address) (s : State) : Result := update (.absoluteX w) (fun v _ => v - 1) countFlags s

/-- INX (R102): increment X. -/
def execInx (s : State) : Result := .next (putReg .x (s.x + 1) s)

/-- DEX (R103): decrement X. -/
def execDex (s : State) : Result := .next (putReg .x (s.x - 1) s)

/-- INY (R104): increment Y. -/
def execIny (s : State) : Result := .next (putReg .y (s.y + 1) s)

/-- DEY (R105): decrement Y. -/
def execDey (s : State) : Result := .next (putReg .y (s.y - 1) s)

end Sys2Proof.Machine
end

