-- ==== Sys2Proof/Machine/Jump.lean ====
section
/-! DEFINITION. The meanings of spec/46_jump.md: JMP, JSR, RTS. Each runs after `pc` has advanced (R55). -/

namespace Sys2Proof.Machine

/-- JMP (R120): jump; `pc` takes the effective address, which is not read. -/
def execJmp (w : Address) (s : State) : Result := ((ea (.absolute w) s).andThen fun a t => .ok () (t.setPc a)).outcome

/-- JSR (R121): jump to subroutine; the address of its own last byte is pushed, high byte first (D11), and `pc` takes the operand. -/
def execJsr (w : Address) (s : State) : Result :=
  ((push8 (hi (s.pc - 1)) s).andThen fun _ t =>
   (push8 (lo (s.pc - 1)) t).andThen fun _ u =>
   .ok () (u.setPc w)).outcome

/-- RTS (R122): return from subroutine; the low byte is pulled first (D11), and `pc` takes the pulled word plus one. -/
def execRts (s : State) : Result :=
  ((pull8 s).andThen fun l t =>
   (pull8 t).andThen fun h u =>
   .ok () (u.setPc (join h l + 1))).outcome

end Sys2Proof.Machine
end

