-- ==== Sys2Proof/Machine/LoadStore.lean ====
section
/-! DEFINITION. The meanings of spec/49_load_store.md: LDA, LDX, LDY, STA, STX, STY. Each runs after `pc` has advanced (R55). -/

namespace Sys2Proof.Machine

/-- LDA, immediate (R145): load accumulator. -/
def execLdaImm (n : Byte) (s : State) : Result := readThen (.immediate n) (putReg .ac) s

/-- LDA, zeropage (R145): load accumulator. -/
def execLdaZp (n : Byte) (s : State) : Result := readThen (.memory (.zeropage n)) (putReg .ac) s

/-- LDA, zeropage,X (R145): load accumulator. -/
def execLdaZpx (n : Byte) (s : State) : Result := readThen (.memory (.zeropageX n)) (putReg .ac) s

/-- LDA, absolute (R145): load accumulator. -/
def execLdaAbs (w : Address) (s : State) : Result := readThen (.memory (.absolute w)) (putReg .ac) s

/-- LDA, absolute,X (R145): load accumulator. -/
def execLdaAbx (w : Address) (s : State) : Result := readThen (.memory (.absoluteX w)) (putReg .ac) s

/-- LDA, absolute,Y (R145): load accumulator. -/
def execLdaAby (w : Address) (s : State) : Result := readThen (.memory (.absoluteY w)) (putReg .ac) s

/-- LDA, indirect,X (R145): load accumulator. -/
def execLdaInx (n : Byte) (s : State) : Result := readThen (.memory (.indirectX n)) (putReg .ac) s

/-- LDA, indirect,Y (R145): load accumulator. -/
def execLdaIny (n : Byte) (s : State) : Result := readThen (.memory (.indirectY n)) (putReg .ac) s

/-- LDX, immediate (R146): load X. -/
def execLdxImm (n : Byte) (s : State) : Result := readThen (.immediate n) (putReg .x) s

/-- LDX, zeropage (R146): load X. -/
def execLdxZp (n : Byte) (s : State) : Result := readThen (.memory (.zeropage n)) (putReg .x) s

/-- LDX, zeropage,Y (R146): load X. -/
def execLdxZpy (n : Byte) (s : State) : Result := readThen (.memory (.zeropageY n)) (putReg .x) s

/-- LDX, absolute (R146): load X. -/
def execLdxAbs (w : Address) (s : State) : Result := readThen (.memory (.absolute w)) (putReg .x) s

/-- LDX, absolute,Y (R146): load X. -/
def execLdxAby (w : Address) (s : State) : Result := readThen (.memory (.absoluteY w)) (putReg .x) s

/-- LDY, immediate (R147): load Y. -/
def execLdyImm (n : Byte) (s : State) : Result := readThen (.immediate n) (putReg .y) s

/-- LDY, zeropage (R147): load Y. -/
def execLdyZp (n : Byte) (s : State) : Result := readThen (.memory (.zeropage n)) (putReg .y) s

/-- LDY, zeropage,X (R147): load Y. -/
def execLdyZpx (n : Byte) (s : State) : Result := readThen (.memory (.zeropageX n)) (putReg .y) s

/-- LDY, absolute (R147): load Y. -/
def execLdyAbs (w : Address) (s : State) : Result := readThen (.memory (.absolute w)) (putReg .y) s

/-- LDY, absolute,X (R147): load Y. -/
def execLdyAbx (w : Address) (s : State) : Result := readThen (.memory (.absoluteX w)) (putReg .y) s

/-- STA, zeropage (R148): store accumulator. -/
def execStaZp (n : Byte) (s : State) : Result := storeReg (.zeropage n) .ac s

/-- STA, zeropage,X (R148): store accumulator. -/
def execStaZpx (n : Byte) (s : State) : Result := storeReg (.zeropageX n) .ac s

/-- STA, absolute (R148): store accumulator. -/
def execStaAbs (w : Address) (s : State) : Result := storeReg (.absolute w) .ac s

/-- STA, absolute,X (R148): store accumulator. -/
def execStaAbx (w : Address) (s : State) : Result := storeReg (.absoluteX w) .ac s

/-- STA, absolute,Y (R148): store accumulator. -/
def execStaAby (w : Address) (s : State) : Result := storeReg (.absoluteY w) .ac s

/-- STA, indirect,X (R148): store accumulator. -/
def execStaInx (n : Byte) (s : State) : Result := storeReg (.indirectX n) .ac s

/-- STA, indirect,Y (R148): store accumulator. -/
def execStaIny (n : Byte) (s : State) : Result := storeReg (.indirectY n) .ac s

/-- STX, zeropage (R149): store X. -/
def execStxZp (n : Byte) (s : State) : Result := storeReg (.zeropage n) .x s

/-- STX, zeropage,Y (R149): store X. -/
def execStxZpy (n : Byte) (s : State) : Result := storeReg (.zeropageY n) .x s

/-- STX, absolute (R149): store X. -/
def execStxAbs (w : Address) (s : State) : Result := storeReg (.absolute w) .x s

/-- STY, zeropage (R150): store Y. -/
def execStyZp (n : Byte) (s : State) : Result := storeReg (.zeropage n) .y s

/-- STY, zeropage,X (R150): store Y. -/
def execStyZpx (n : Byte) (s : State) : Result := storeReg (.zeropageX n) .y s

/-- STY, absolute (R150): store Y. -/
def execStyAbs (w : Address) (s : State) : Result := storeReg (.absolute w) .y s

end Sys2Proof.Machine
end

