-- ==== Sys2Proof/Machine/Logical.lean ====
section
/-! DEFINITION. The meanings of spec/41_logical.md: AND, ORA, EOR. Each runs after `pc` has advanced (R55). -/

namespace Sys2Proof.Machine

/-- AND, immediate (R85): bitwise and. -/
def execAndImm (n : Byte) (s : State) : Result := readThen (.immediate n) (logic (· &&& ·)) s

/-- AND, zeropage (R85): bitwise and. -/
def execAndZp (n : Byte) (s : State) : Result := readThen (.memory (.zeropage n)) (logic (· &&& ·)) s

/-- AND, zeropage,X (R85): bitwise and. -/
def execAndZpx (n : Byte) (s : State) : Result := readThen (.memory (.zeropageX n)) (logic (· &&& ·)) s

/-- AND, absolute (R85): bitwise and. -/
def execAndAbs (w : Address) (s : State) : Result := readThen (.memory (.absolute w)) (logic (· &&& ·)) s

/-- AND, absolute,X (R85): bitwise and. -/
def execAndAbx (w : Address) (s : State) : Result := readThen (.memory (.absoluteX w)) (logic (· &&& ·)) s

/-- AND, absolute,Y (R85): bitwise and. -/
def execAndAby (w : Address) (s : State) : Result := readThen (.memory (.absoluteY w)) (logic (· &&& ·)) s

/-- AND, indirect,X (R85): bitwise and. -/
def execAndInx (n : Byte) (s : State) : Result := readThen (.memory (.indirectX n)) (logic (· &&& ·)) s

/-- AND, indirect,Y (R85): bitwise and. -/
def execAndIny (n : Byte) (s : State) : Result := readThen (.memory (.indirectY n)) (logic (· &&& ·)) s

/-- ORA, immediate (R86): bitwise inclusive or. -/
def execOraImm (n : Byte) (s : State) : Result := readThen (.immediate n) (logic (· ||| ·)) s

/-- ORA, zeropage (R86): bitwise inclusive or. -/
def execOraZp (n : Byte) (s : State) : Result := readThen (.memory (.zeropage n)) (logic (· ||| ·)) s

/-- ORA, zeropage,X (R86): bitwise inclusive or. -/
def execOraZpx (n : Byte) (s : State) : Result := readThen (.memory (.zeropageX n)) (logic (· ||| ·)) s

/-- ORA, absolute (R86): bitwise inclusive or. -/
def execOraAbs (w : Address) (s : State) : Result := readThen (.memory (.absolute w)) (logic (· ||| ·)) s

/-- ORA, absolute,X (R86): bitwise inclusive or. -/
def execOraAbx (w : Address) (s : State) : Result := readThen (.memory (.absoluteX w)) (logic (· ||| ·)) s

/-- ORA, absolute,Y (R86): bitwise inclusive or. -/
def execOraAby (w : Address) (s : State) : Result := readThen (.memory (.absoluteY w)) (logic (· ||| ·)) s

/-- ORA, indirect,X (R86): bitwise inclusive or. -/
def execOraInx (n : Byte) (s : State) : Result := readThen (.memory (.indirectX n)) (logic (· ||| ·)) s

/-- ORA, indirect,Y (R86): bitwise inclusive or. -/
def execOraIny (n : Byte) (s : State) : Result := readThen (.memory (.indirectY n)) (logic (· ||| ·)) s

/-- EOR, immediate (R87): bitwise exclusive or. -/
def execEorImm (n : Byte) (s : State) : Result := readThen (.immediate n) (logic (· ^^^ ·)) s

/-- EOR, zeropage (R87): bitwise exclusive or. -/
def execEorZp (n : Byte) (s : State) : Result := readThen (.memory (.zeropage n)) (logic (· ^^^ ·)) s

/-- EOR, zeropage,X (R87): bitwise exclusive or. -/
def execEorZpx (n : Byte) (s : State) : Result := readThen (.memory (.zeropageX n)) (logic (· ^^^ ·)) s

/-- EOR, absolute (R87): bitwise exclusive or. -/
def execEorAbs (w : Address) (s : State) : Result := readThen (.memory (.absolute w)) (logic (· ^^^ ·)) s

/-- EOR, absolute,X (R87): bitwise exclusive or. -/
def execEorAbx (w : Address) (s : State) : Result := readThen (.memory (.absoluteX w)) (logic (· ^^^ ·)) s

/-- EOR, absolute,Y (R87): bitwise exclusive or. -/
def execEorAby (w : Address) (s : State) : Result := readThen (.memory (.absoluteY w)) (logic (· ^^^ ·)) s

/-- EOR, indirect,X (R87): bitwise exclusive or. -/
def execEorInx (n : Byte) (s : State) : Result := readThen (.memory (.indirectX n)) (logic (· ^^^ ·)) s

/-- EOR, indirect,Y (R87): bitwise exclusive or. -/
def execEorIny (n : Byte) (s : State) : Result := readThen (.memory (.indirectY n)) (logic (· ^^^ ·)) s

end Sys2Proof.Machine
end

