-- ==== Sys2Proof/Machine/ShiftRotate.lean ====
section
/-! DEFINITION. The meanings of spec/42_shift_rotate.md: ASL, LSR, ROL, ROR. Each runs after `pc` has advanced (R55). -/

namespace Sys2Proof.Machine

/-- ASL, accumulator (R91): shift left. -/
def execAslAcc (s : State) : Result := shiftAcc aslResult leftOut s

/-- ASL, zeropage (R91): shift left. -/
def execAslZp (n : Byte) (s : State) : Result := shiftMem (.zeropage n) aslResult leftOut s

/-- ASL, zeropage,X (R91): shift left. -/
def execAslZpx (n : Byte) (s : State) : Result := shiftMem (.zeropageX n) aslResult leftOut s

/-- ASL, absolute (R91): shift left. -/
def execAslAbs (w : Address) (s : State) : Result := shiftMem (.absolute w) aslResult leftOut s

/-- ASL, absolute,X (R91): shift left. -/
def execAslAbx (w : Address) (s : State) : Result := shiftMem (.absoluteX w) aslResult leftOut s

/-- LSR, accumulator (R92): shift right. -/
def execLsrAcc (s : State) : Result := shiftAcc lsrResult rightOut s

/-- LSR, zeropage (R92): shift right. -/
def execLsrZp (n : Byte) (s : State) : Result := shiftMem (.zeropage n) lsrResult rightOut s

/-- LSR, zeropage,X (R92): shift right. -/
def execLsrZpx (n : Byte) (s : State) : Result := shiftMem (.zeropageX n) lsrResult rightOut s

/-- LSR, absolute (R92): shift right. -/
def execLsrAbs (w : Address) (s : State) : Result := shiftMem (.absolute w) lsrResult rightOut s

/-- LSR, absolute,X (R92): shift right. -/
def execLsrAbx (w : Address) (s : State) : Result := shiftMem (.absoluteX w) lsrResult rightOut s

/-- ROL, accumulator (R93): rotate left through carry. -/
def execRolAcc (s : State) : Result := shiftAcc rolResult leftOut s

/-- ROL, zeropage (R93): rotate left through carry. -/
def execRolZp (n : Byte) (s : State) : Result := shiftMem (.zeropage n) rolResult leftOut s

/-- ROL, zeropage,X (R93): rotate left through carry. -/
def execRolZpx (n : Byte) (s : State) : Result := shiftMem (.zeropageX n) rolResult leftOut s

/-- ROL, absolute (R93): rotate left through carry. -/
def execRolAbs (w : Address) (s : State) : Result := shiftMem (.absolute w) rolResult leftOut s

/-- ROL, absolute,X (R93): rotate left through carry. -/
def execRolAbx (w : Address) (s : State) : Result := shiftMem (.absoluteX w) rolResult leftOut s

/-- ROR, accumulator (R94): rotate right through carry. -/
def execRorAcc (s : State) : Result := shiftAcc rorResult rightOut s

/-- ROR, zeropage (R94): rotate right through carry. -/
def execRorZp (n : Byte) (s : State) : Result := shiftMem (.zeropage n) rorResult rightOut s

/-- ROR, zeropage,X (R94): rotate right through carry. -/
def execRorZpx (n : Byte) (s : State) : Result := shiftMem (.zeropageX n) rorResult rightOut s

/-- ROR, absolute (R94): rotate right through carry. -/
def execRorAbs (w : Address) (s : State) : Result := shiftMem (.absolute w) rorResult rightOut s

/-- ROR, absolute,X (R94): rotate right through carry. -/
def execRorAbx (w : Address) (s : State) : Result := shiftMem (.absoluteX w) rorResult rightOut s

end Sys2Proof.Machine
end

