-- ==== Sys2Proof/Machine/StackTransfer.lean ====
section
/-! DEFINITION. The meanings of spec/47_stack_transfer.md: PHA, PLA, TAX, TAY, TXA, TYA, TXS. Each runs after `pc` has advanced (R55). -/

namespace Sys2Proof.Machine

/-- PHA (R125): push accumulator; AC is pushed (R28); no flag is written. -/
def execPha (s : State) : Result := (push8 s.ac s).outcome

/-- PLA (R126): pull accumulator; AC takes the pulled byte, Z and N from it (D9). -/
def execPla (s : State) : Result := ((pull8 s).andThen fun v t => .ok () (putReg .ac v t)).outcome

/-- TAX (R127): AC to X. -/
def execTax (s : State) : Result := .next (putReg .x s.ac s)

/-- TAY (R128): AC to Y. -/
def execTay (s : State) : Result := .next (putReg .y s.ac s)

/-- TXA (R129): X to AC. -/
def execTxa (s : State) : Result := .next (putReg .ac s.x s)

/-- TYA (R130): Y to AC. -/
def execTya (s : State) : Result := .next (putReg .ac s.y s)

/-- TXS (R131): X to SP, no flag written (D8). -/
def execTxs (s : State) : Result := .next (s.setReg .sp s.x)

end Sys2Proof.Machine
end

