-- ==== Sys2Proof/Machine/Fetch.lean ====
section
/-! DEFINITION. The parts of the Step sequence around the operation (30_encoding.md R53, R55; 60_exceptions.md R170): Decode,
the monitor observation, the advance of `pc`, and the end of the Step. -/

namespace Sys2Proof.Machine

/-- The instruction is decoded: the latch holds it (R25), with `pc_instr`, which `pc` still equals (R53). -/
def latchDecoded (op : Byte) (i : Instr) (s : State) : Res Instr :=
  .ok i (s.setLatch (.decoded s.pc op i))

/-- Read the operand bytes a descriptor asks for, in ascending address order, the 16-bit operand low byte first (R53). -/
def fetchOperand (op : Byte) (d : Descriptor) (s : State) : Res Instr :=
  match d with
  | .f1 i    => latchDecoded op i s
  | .f2 make => (memRead (s.pc + 1) s).andThen fun n t => latchDecoded op (make n) t
  | .f3 make => (memRead16 (s.pc + 1) s).andThen fun w t => latchDecoded op (make w) t

/-- `Decode()` (R53): the opcode byte at `pc`, the legality check, then the operand bytes. `pc` is not advanced. -/
def fetch (s : State) : Res Instr :=
  (memRead s.pc (s.setLatch (.fetching s.pc))).andThen fun op t =>
    let u := t.setLatch (.fetched t.pc op)
    match descriptor op with
    | none   => raise .illegalOpcode u
    | some d => fetchOperand op d u

/-- The monitor observation point (R170): if a monitor is attached it is shown the decoded instruction, `pc = pc_instr`, and
all core and bus state before any mutation (R171; a ROM that a write has reached: log entry 18). It changes nothing else (R171,
D21), and how long it takes is not modelled (log entry 7). -/
def observe (i : Instr) (s : State) : State :=
  match s.monitor with
  | none      => s
  | some seen =>
    { s with monitor := some ({ instr := i, opcode := i.opcode, pc := s.pc, ac := s.ac, x := s.x, y := s.y, sp := s.sp,
                                sr := s.sr, run := s.run, haltLatch := s.haltLatch, faultRecord := s.faultRecord,
                                platform := s.platform, mem := s.mem, disturbed := s.disturbed, bus := s.bus,
                                missed := s.missed } :: seen) }

/-- `pc <- (pc_instr + length) mod 65536`, before the operation executes (R11, R55). -/
def advance (i : Instr) (s : State) : State := s.setPc (s.pc + BitVec.ofNat 16 i.length)

/-- The Step is over: the decoded instruction is "discarded after execute" (R25). -/
def endStep (r : Result) : Result :=
  match r with
  | .next s    => .next (s.setLatch .empty)
  | .fault f   => .fault f
  | .refused f => .refused f

/-- Load the bytes at `a`, `a + 1`, … without a bus access. -/
def pokeAll : List Byte → Address → State → State
  | [], _, s => s
  | v :: rest, a, s => pokeAll rest (a + 1) (s.poke a v)

end Sys2Proof.Machine
end

