-- ==== Sys2Proof/Machine/Reset.lean ====
section
/-! DEFINITION. What the host does to the core between Steps (70_reset_and_hazards.md R180 to R182, 60_exceptions.md R176).
These are actions of the host, not of any instruction; `step` takes none of them (log entry 16). -/

namespace Sys2Proof.Machine

/-- RESET_VECTOR (R4): 0xFFFC low byte, 0xFFFD high byte. -/
def resetVector : Address := 0xFFFC

/-- RESET_SR (R4). -/
def resetSr : Byte := 0x34

/-- The writes of Reset, after both vector reads (R180, D19): PC, SR and the run state. -/
def State.restart (s : State) (entry : Address) : State := { s with pc := entry, sr := resetSr, run := .running }

/-- `Reset()` (R180), accepted in every run state (R181): two bus reads, low byte first, then the writes. AC, X, Y, SP, memory,
the halt latch and the fault record stay as they are. A vector read that misses the bindings raises BusFault and leaves PC and SR
as they were. An ill-formed configuration is refused (R46). -/
def hostReset (s : State) : Result :=
  if s.platform.wf then
    ((memRead16 resetVector (s.setLatch .empty)).andThen fun entry t => .ok () (t.restart entry)).outcome
  else .refused .illFormedBindings

/-- Host stop (R176, D32): the core leaves RUNNING, with no exit code. A core that is not running has nothing to stop. -/
def hostStop (s : State) : State :=
  if s.run = .running then { s with run := .stopped } else s

/-- The core at power-on on a platform with its memory loaded (R182). Every register is a parameter (`power_on_state`, D18), and so
are the halt latch, to which the spec gives no value before a HLT (R26; log entry 2), and whether a monitor is attached (R4; log
entry 7), which has then been shown nothing. No Step is taken before a Reset (log entry 6). DESIGN CHOICE (log entry 17): no
fault is on record, no access has been made or missed, and no ROM has been written to. -/
def State.powerOn (p : Platform) (mem : Memory) (pc : Address) (sr ac x y sp halt : Byte) (attached : Bool) : State :=
  { pc := pc, ac := ac, x := x, y := y, sp := sp, sr := sr, run := .awaitingReset, latch := .empty, haltLatch := halt,
    faultRecord := none, platform := p, mem := mem, disturbed := [], bus := [], missed := [],
    monitor := if attached then some [] else none }

end Sys2Proof.Machine
end

