-- ==== Sys2Proof/Machine/Step.lean ====
section
/-! DEFINITION. One Step (30_encoding.md R55): fetch and decode, observe, advance, execute. -/

namespace Sys2Proof.Machine

/-- `Step()` (R55). It is taken only in RUNNING; in every other run state the core is stuck (R24, R167, U17), and on bindings
that are not well formed the model gives no behaviour (R46, log entry 13). A fault raised in Decode ends the Step before the
monitor is called and before `pc` advances. -/
def step (s : State) : Result :=
  if s.platform.wf then
    match s.run with
    | .halted        => .fault .haltedCore
    | .faulted       => .fault .faultedCore
    | .stopped       => .fault .stoppedCore
    | .awaitingReset => .fault .coreNotReset
    | .running       =>
      match fetch s with
      | .raised t => endStep (.next t)
      | .ok i t   => endStep (exec i (advance i (observe i t)))
  else .refused .illFormedBindings

/-- `s` with the instruction whose bits are `w` stored at `pc`, where `step` fetches next: three bytes, the ones above `nbits`
zero. Only memory changes (log entry 10). -/
def State.withFetchWord (s : State) (nbits w : Nat) : State := pokeAll (tableBytes nbits w) s.pc s

end Sys2Proof.Machine
end

