-- ==== Sys2Proof/Safety.lean ====
section
/-! DEFINITION. The terms claims are stated in: what a good state and a safe run are, the tables of the spec that a claim
quotes, and how a claim says what changed. -/

namespace Sys2Proof.Machine

/-! ## States and runs -/

/-- The model's own invariant: the configuration is well formed (20_memory.md R46), memory is in its canonical form, nothing is
in the decoded-instruction latch between Steps (10_state.md R25), and no backend is listed twice as disturbed. -/
def State.Inv (s : State) : Prop :=
  s.platform.wf = true ∧ Memory.wf s.mem = true ∧ s.latch = .empty ∧ s.disturbed.Nodup

/-- What R18 to R21 of 10_state.md say SR shows for the whole run after a Reset: D = 0, B = 1, U = 1, V = 0. -/
def State.FixedBits (s : State) : Prop :=
  flag s.sr .D = false ∧ flag s.sr .B = true ∧ flag s.sr .U = true ∧ flag s.sr .V = false

/-- `t` is a state some number of Steps after `s`. -/
inductive Reaches : State → State → Prop where
  | refl (s : State) : Reaches s s
  | tail {s t u : State} : Reaches s t → step t = .next u → Reaches s u

/-- A run that no fault ends (60_exceptions.md R167: "a faulted run is never a successful end"). -/
def State.NeverFaults (s : State) : Prop := ∀ t, Reaches s t → t.run ≠ .faulted

/-- A run that a HLT ends with an exit code (70_reset_and_hazards.md R190 (a)). -/
def State.HaltsWith (s : State) (code : Byte) : Prop := ∃ t, Reaches s t ∧ t.run = .halted ∧ t.haltLatch = code

/-! ## Tables of the spec -/

/-- The 116 byte values with no descriptor, as 30_encoding.md R57 lists them. -/
def illegalOpcodes : List Byte :=
  [0x00, 0x02, 0x03, 0x04, 0x07, 0x08, 0x0B, 0x0C, 0x0F, 0x12, 0x13, 0x14, 0x17, 0x1A, 0x1B, 0x1C,
   0x1F, 0x22, 0x23, 0x24, 0x27, 0x28, 0x2B, 0x2C, 0x2F, 0x32, 0x33, 0x34, 0x37, 0x3A, 0x3B, 0x3C,
   0x3F, 0x40, 0x42, 0x43, 0x44, 0x47, 0x4B, 0x4F, 0x50, 0x52, 0x53, 0x54, 0x57, 0x5A, 0x5B, 0x5C,
   0x5F, 0x62, 0x63, 0x64, 0x67, 0x6B, 0x6C, 0x6F, 0x70, 0x72, 0x73, 0x74, 0x77, 0x7A, 0x7B, 0x7C,
   0x7F, 0x80, 0x82, 0x83, 0x87, 0x89, 0x8B, 0x8F, 0x92, 0x93, 0x97, 0x9B, 0x9C, 0x9E, 0x9F, 0xA3,
   0xA7, 0xAB, 0xAF, 0xB2, 0xB3, 0xB7, 0xB8, 0xBA, 0xBB, 0xBF, 0xC2, 0xC3, 0xC7, 0xCB, 0xCF, 0xD2,
   0xD3, 0xD4, 0xD7, 0xDA, 0xDB, 0xDC, 0xDF, 0xE2, 0xE3, 0xE7, 0xEB, 0xEF, 0xF2, 0xF3, 0xF4, 0xF7,
   0xF8, 0xFA, 0xFB, 0xFC]

/-- The twelve bytes that spell documented MOS 6502 instructions this hardware leaves out (30_encoding.md R59). -/
def leftOutOpcodes : List Byte := [0x00, 0x08, 0x24, 0x28, 0x2C, 0x40, 0x50, 0x6C, 0x70, 0xB8, 0xBA, 0xF8]

/-- The instructions that call `SetZN` (10_state.md R16). -/
def znWriters : List Mnemonic :=
  [.ADC, .SBC, .AND, .ORA, .EOR, .ASL, .LSR, .ROL, .ROR, .CMP, .CPX, .CPY, .INC, .DEC, .INX, .DEX, .INY, .DEY, .PLA, .TAX,
   .TAY, .TXA, .TYA, .LDA, .LDX, .LDY]

/-- The instructions that write Carry (10_state.md R15). -/
def carryWriters : List Mnemonic := [.ADC, .SBC, .ASL, .LSR, .ROL, .ROR, .CMP, .CPX, .CPY, .CLC, .SEC]

/-! ## Saying what changed -/

/-- The next state of an outcome, changed by `f`. -/
def mapNext (f : State → State) (r : Result) : Result :=
  match r with
  | .next s    => .next (f s)
  | .fault e   => .fault e
  | .refused e => .refused e

/-- Z and N reflect `v` (10_state.md R23). -/
def ReflectsZN (sr : Byte) (v : Byte) : Prop := flag sr .Z = decide (v = 0) ∧ flag sr .N = v.getLsbD 7

/-- Every flag but those listed is the same in both status bytes. -/
def FlagsKept (changed : List Flag) (before after : Byte) : Prop := ∀ f, f ∉ changed → flag after f = flag before f

/-- What a write of `v` at `a`, delivered to place `p`, does to the bytes of memory between `s` and `u`: RAM holds `v` there and
every other byte reads as before (20_memory.md R45). Bytes are read by `State.peek`. A write to a ROM opens that backend's own
contents (R45, log entry 5), and no other backend's. -/
def StoresByte (s u : State) (a : Address) (p : Place) (v : Byte) : Prop :=
  (p.kind = .ram → Memory.wf s.mem = true → u.peek a = some v) ∧
  ∀ b q, route s.platform b = some q → q.key ≠ p.key → (p.kind = .rom → q.backend ≠ p.backend) → u.peek b = s.peek b

/-- The instruction ended in FAULTED by cause `c` (60_exceptions.md R166): between `s` and `t` nothing has changed but the bus
accesses already made and what fault entry writes, `run`, the fault record with its context (R164), and the model's own record of
the access that missed, if one did (00_scope.md R7, log entry 19). -/
def EndsFaulted (s t : State) (c : Cause) : Prop :=
  t = { s with
        bus := t.bus
        run := .faulted
        missed := c.missed s.missed
        faultRecord := some { fault := c.fault, pcInstr := s.latch.pcInstr?, opcode := s.latch.opcode? } }

/-- A fault of an instruction that only reads its operand: BusFault on a read, or IndirectXPageCross in indirect,X mode
(60_exceptions.md R160). -/
def IsReadFault (i : Instr) (c : Cause) : Prop :=
  (∃ a, c = .busFault (.read a)) ∨ (c = .indirectXPageCross ∧ i.form.mode = .indirectX)

/-- The result and the carry-out of one shift or rotate of `v` with carry-in `c`, as R91 to R94 of 42_shift_rotate.md give
them in numbers; none for any other mnemonic. -/
def shiftSpec (m : Mnemonic) (v : Byte) (c : Bool) : Option (Nat × Bool) :=
  if m = .ASL then some (v.toNat * 2 % 256, v.getLsbD 7)
  else if m = .LSR then some (v.toNat / 2, v.getLsbD 0)
  else if m = .ROL then some (v.toNat * 2 % 256 + c.toNat, v.getLsbD 7)
  else if m = .ROR then some (v.toNat / 2 + c.toNat * 128, v.getLsbD 0)
  else none

/-- The condition of each branch (45_branch.md R111 to R116); none for any other mnemonic. -/
def branchSpec (m : Mnemonic) (sr : Byte) : Option Bool :=
  if m = .BCC then some (!flag sr .C)
  else if m = .BCS then some (flag sr .C)
  else if m = .BEQ then some (flag sr .Z)
  else if m = .BNE then some (!flag sr .Z)
  else if m = .BMI then some (flag sr .N)
  else if m = .BPL then some (!flag sr .N)
  else none

/-- Read `n` bytes in ascending address order, as the bus delivers them. -/
def readBytes : Nat → Address → State → Res (List Byte)
  | 0, _, s => .ok [] s
  | n + 1, a, s =>
    (memRead a s).andThen fun v t =>
    (readBytes n (a + 1) t).andThen fun rest u =>
    .ok (v :: rest) u

/-- A binding covers an address (20_memory.md R32). -/
def Covers (p : Platform) (b : Binding) (a : Address) : Prop :=
  b.base.toNat ≤ a.toNat ∧ a.toNat < b.base.toNat + p.sizeOf b

end Sys2Proof.Machine
end

