-- ==== Sys2Proof/Certificates/Slice0/Obligations.lean ====
section
/-! DEFINITION. The statements for the provers. Each docstring names the rule it formalises. Bus accesses and misses are the
events of the Bus interfaces of 00_scope.md R7; the fields that keep them, `bus` and `missed`, are the model's own record (log
entries 11 and 19). -/

open Sys2Proof Sys2Proof.Machine

/-! ## Encoding and decoding -/

/-- Decoding the encoding of an instruction gives it back, with every operand, and leaves the bytes after it (30_encoding.md R51,
R53, R54, R56). -/
def Obligations.DecodeOfEncodeIsTheInstruction : Prop :=
  ∀ (i : Instr) (rest : List Byte), decode (encode i ++ rest) = .ok (i, rest)

/-- Bytes that decode are the encoding of what they decode to, followed by what is left: each word has one meaning, and decoding
consumes exactly `length - 1` operand bytes (95_test_vectors.md W1). -/
def Obligations.DecodedBytesAreTheEncoding : Prop :=
  ∀ (bytes rest : List Byte) (i : Instr), decode bytes = .ok (i, rest) →
    bytes = encode i ++ rest ∧ bytes.length = i.length + rest.length

/-- A few words written out from the examples of 30_encoding.md R61 and the families' rules. -/
def Obligations.ExampleWordsDecode : Prop :=
  decodeTableWord 16 0x10A9 = some (.ldaImm 0x10) ∧ decodeTableWord 16 0x10A5 = some (.ldaZp 0x10) ∧
  decodeTableWord 24 0x1234AD = some (.ldaAbs 0x1234) ∧ decodeTableWord 16 0x10A1 = some (.ldaInx 0x10) ∧
  decodeTableWord 16 0x10B1 = some (.ldaIny 0x10) ∧ decodeTableWord 16 0x05F0 = some (.beq 0x05) ∧
  decodeTableWord 24 0x801020 = some (.jsr 0x8010) ∧ decodeTableWord 8 0x0A = some .aslAcc ∧
  decodeTableWord 8 0xFF = some .hlt ∧ decodeTableWord 8 0x00 = none

/-- The legal opcodes are 140 different bytes (R56), and the bytes with no descriptor are exactly the 116 that R57 lists, the
twelve left-out instructions of R59 among them. -/
def Obligations.LegalOpcodesAreExactlyTheTable : Prop :=
  opcodeTable.length = 140 ∧ (opcodeTable.map Prod.fst).Nodup ∧
  (∀ op : Byte, descriptor op = none ↔ op ∈ illegalOpcodes) ∧ ∀ op ∈ leftOutOpcodes, op ∈ illegalOpcodes

/-! ## The Step sequence -/

/-- R55 with R53: when the core is RUNNING on a well-formed configuration and the bytes the bus delivers from `pc` on are a
well-formed instruction `i`, a Step is `exec i`, at the state where those bytes have been read (and nothing more), the latch
holds `i` with `pc_instr`, the monitor (if any) has been shown it, and `pc` has moved past the instruction's bytes; the latch is
empty again after it. -/
def Obligations.StepRunsTheDecodedInstruction : Prop :=
  ∀ (s t : State) (bytes : List Byte) (i : Instr),
    s.platform.wf = true → s.run = .running → readBytes bytes.length s.pc s = .ok bytes t →
    decode bytes = .ok (i, []) → i.wf = true →
    step s = endStep (exec i (advance i (observe i { t with latch := .decoded s.pc i.opcode i }))) ∧
    t = { s with bus := t.bus } ∧ t.bus.length = s.bus.length + i.length

/-- R161 (code 1): the byte at `pc` is one of the 116 illegal values. Nothing but the opcode byte is read, nothing is shown to the monitor,
`pc` still points at it, and `pc_instr` and the byte are recorded. No instruction raises this fault once decoded. -/
def Obligations.IllegalOpcodeFaultsInDecode : Prop :=
  (∀ (s : State) (p : Place), s.platform.wf = true → s.run = .running → route s.platform s.pc = some p →
    s.answer p ∈ illegalOpcodes →
    step s = .next { s with
      run := .faulted
      latch := .empty
      bus := .read s.pc p.backend p.localAddr (s.answer p) :: s.bus
      faultRecord := some { fault := .illegalOpcode, pcInstr := some s.pc, opcode := some (s.answer p) } }) ∧
  CoreFault.illegalOpcode.code = 1 ∧
  (∀ op ∈ leftOutOpcodes, op ∈ illegalOpcodes) ∧
  (∀ op : Byte, descriptor op = none ↔ op ∈ illegalOpcodes) ∧
  ∀ (i : Instr) (s t : State) (r : FaultRecord), exec i s = .next t → t.faultRecord = some r →
    r.fault = .illegalOpcode → s.faultRecord = some r

/-- R55, R162: a fetch byte no binding covers raises BusFault in Decode, with `pc` not advanced: the opcode byte (no opcode is
recorded), or an operand byte of a legal opcode (the opcode is recorded and its read stands on the bus). -/
def Obligations.UnmappedFetchFaultsInDecode : Prop :=
  (∀ s : State, s.platform.wf = true → s.run = .running → route s.platform s.pc = none →
    step s = .next { s with
      run := .faulted
      latch := .empty
      missed := .read s.pc :: s.missed
      faultRecord := some { fault := .busFault .read s.pc, pcInstr := some s.pc, opcode := none } }) ∧
  (∀ (s : State) (p : Place) (d : Descriptor), s.platform.wf = true → s.run = .running →
    route s.platform s.pc = some p → descriptor (s.answer p) = some d → 2 ≤ d.length →
    route s.platform (s.pc + 1) = none →
    step s = .next { s with
      run := .faulted
      latch := .empty
      bus := .read s.pc p.backend p.localAddr (s.answer p) :: s.bus
      missed := .read (s.pc + 1) :: s.missed
      faultRecord := some { fault := .busFault .read (s.pc + 1), pcInstr := some s.pc, opcode := some (s.answer p) } }) ∧
  ∀ (s : State) (p q : Place) (d : Descriptor), s.platform.wf = true → s.run = .running →
    route s.platform s.pc = some p → descriptor (s.answer p) = some d → d.length = 3 →
    route s.platform (s.pc + 1) = some q → route s.platform (s.pc + 1 + 1) = none →
    ∃ t, step s = .next t ∧
      t = { s with
        run := .faulted
        latch := .empty
        bus := t.bus
        missed := .read (s.pc + 1 + 1) :: s.missed
        faultRecord := some { fault := .busFault .read (s.pc + 1 + 1), pcInstr := some s.pc,
                              opcode := some (s.answer p) } } ∧
      t.bus.length = s.bus.length + 2

/-- R24, R167, R175 with the model's named stops: outside RUNNING no Step is taken, and on bindings that are not well formed there
is no behaviour (R46). -/
def Obligations.NoStepOutsideRunning : Prop :=
  (∀ s : State, s.platform.wf = true →
    (s.run = .halted → step s = .fault .haltedCore) ∧ (s.run = .faulted → step s = .fault .faultedCore) ∧
    (s.run = .stopped → step s = .fault .stoppedCore) ∧ (s.run = .awaitingReset → step s = .fault .coreNotReset) ∧
    (s.run = .running → ∃ t, step s = .next t)) ∧
  ∀ s : State, s.platform.wf = false → step s = .refused .illFormedBindings

/-- R170, R171: the monitor is shown every instruction that decodes, with `pc = pc_instr` and all core and bus state as it was
before any mutation (what it shows of a ROM that a write has reached, and the two logs, are the model's choice, log entry 18);
and a Step does the same to everything else whether a monitor is attached or not. -/
def Obligations.MonitorSeesButDoesNotChange : Prop :=
  (∀ (s : State) (m : Option (List Observation)),
    mapNext (fun t => { t with monitor := none }) (step { s with monitor := m }) =
      mapNext (fun t => { t with monitor := none }) (step s)) ∧
  ∀ (s t : State) (seen : List Observation) (bytes : List Byte) (i : Instr),
    s.platform.wf = true → s.run = .running → s.monitor = some seen → readBytes bytes.length s.pc s = .ok bytes t →
    decode bytes = .ok (i, []) →
    ∃ u, step s = .next u ∧
      u.monitor = some ({ instr := i, opcode := i.opcode, pc := s.pc, ac := s.ac, x := s.x, y := s.y, sp := s.sp, sr := s.sr,
                          run := s.run, haltLatch := s.haltLatch, faultRecord := s.faultRecord, platform := s.platform,
                          mem := s.mem, disturbed := s.disturbed, bus := t.bus, missed := s.missed } :: seen)

/-! ## Invariants and whole-machine rules -/

/-- The state right after Reset meets the invariant. -/
def Obligations.ResetStateMeetsTheInvariant : Prop := State.reset.Inv

/-- Every Step keeps the invariant: the configuration is well formed, memory is in canonical form, the latch is empty between
Steps (R25), and no disturbed ROM is listed twice. -/
def Obligations.StepKeepsTheInvariant : Prop :=
  ∀ s t : State, s.Inv → step s = .next t → t.Inv

/-- R18 to R21: D = 0, B = 1, U = 1 and V = 0 hold in the state right after Reset. -/
def Obligations.ResetStateHasTheFixedBits : Prop := State.reset.FixedBits

/-- R18 to R21: "after a Reset" D is 0, B is 1, U is 1 and V is 0 "for the whole run": every Step keeps them, from every state that
has them, and so every state a run reaches has them. -/
def Obligations.StepKeepsTheFixedBits : Prop :=
  (∀ s t : State, s.FixedBits → step s = .next t → t.FixedBits) ∧
  ∀ s t : State, s.FixedBits → Reaches s t → t.FixedBits

/-- R19, R20, R21: no instruction writes B, U or V, whatever it does, faults included; a Reset that can read its vector sets B and
U and clears V. -/
def Obligations.NoInstructionWritesBreakUnusedOverflow : Prop :=
  (∀ (i : Instr) (s t : State), exec i s = .next t →
    flag t.sr .B = flag s.sr .B ∧ flag t.sr .U = flag s.sr .U ∧ flag t.sr .V = flag s.sr .V) ∧
  ∀ s t : State, hostReset s = .next t → t.run = .running →
    flag t.sr .B = true ∧ flag t.sr .U = true ∧ flag t.sr .V = false

/-- R17 to R21: I, D, B, U and V are read by nothing. Whatever the bit held before, the instruction does the same to everything
but that bit. -/
def Obligations.NoInstructionReadsTheUnreadFlags : Prop :=
  ∀ (f : Flag) (b : Bool) (i : Instr) (s : State), f ∈ [Flag.I, .D, .B, .U, .V] →
    mapNext (fun t => t.setFlag f false) (exec i (s.setFlag f b)) = mapNext (fun t => t.setFlag f false) (exec i s)

/-- R15 to R22: which instructions write which flag; all others leave it, in every next state. -/
def Obligations.FlagsWrittenOnlyByTheirInstructions : Prop :=
  ∀ (i : Instr) (s t : State), exec i s = .next t →
    (i.mnemonic ∉ carryWriters → flag t.sr .C = flag s.sr .C) ∧
    (i.mnemonic ∉ znWriters → flag t.sr .Z = flag s.sr .Z ∧ flag t.sr .N = flag s.sr .N) ∧
    (i.mnemonic ∉ [.CLI, .SEI] → flag t.sr .I = flag s.sr .I) ∧
    (i.mnemonic ≠ .CLD → flag t.sr .D = flag s.sr .D)

/-- R11 to R13: which instructions write which register; all others leave it, in every next state. The shifts write AC in
accumulator mode only. -/
def Obligations.RegistersWrittenOnlyByTheirInstructions : Prop :=
  ∀ (i : Instr) (s t : State), exec i s = .next t →
    (i.mnemonic ∉ [.ADC, .SBC, .AND, .ORA, .EOR, .LDA, .PLA, .TXA, .TYA] → i.form ≠ .accumulator → t.ac = s.ac) ∧
    (i.mnemonic ∉ [.LDX, .TAX, .INX, .DEX] → t.x = s.x) ∧
    (i.mnemonic ∉ [.LDY, .TAY, .INY, .DEY] → t.y = s.y) ∧
    (i.mnemonic ∉ [.TXS, .PHA, .PLA, .JSR, .RTS] → t.sp = s.sp) ∧
    (i.mnemonic ∉ [.BCC, .BCS, .BEQ, .BNE, .BMI, .BPL, .JMP, .JSR, .RTS] → t.pc = s.pc) ∧
    (i.mnemonic ≠ .HLT → t.haltLatch = s.haltLatch)

/-- R44, R75: only the stores, the read-modify-writes in a memory mode, PHA and JSR write memory; in every next state of any other
instruction every byte reads as before, whatever backend holds it. -/
def Obligations.MemoryWrittenOnlyByStoringInstructions : Prop :=
  ∀ (i : Instr) (s t : State), exec i s = .next t →
    (i.mnemonic ∉ [.STA, .STX, .STY, .INC, .DEC, .ASL, .LSR, .ROL, .ROR, .PHA, .JSR] ∨ i.form = .accumulator) →
    t.mem = s.mem ∧ t.disturbed = s.disturbed ∧ ∀ a, t.peek a = s.peek a

/-- R32, R24, R25: no instruction changes the bindings, the latch or what the monitor was shown, and `run` leaves RUNNING only for
HALTED by HLT or for FAULTED by a fault. A Step changes no binding either. -/
def Obligations.InstructionsKeepPlatformAndRunState : Prop :=
  (∀ (i : Instr) (s t : State), exec i s = .next t →
    t.platform = s.platform ∧ t.latch = s.latch ∧ t.monitor = s.monitor ∧
    (t.run = s.run ∨ (t.run = .halted ∧ i.mnemonic = .HLT) ∨ t.run = .faulted)) ∧
  ∀ s t : State, step s = .next t → t.platform = s.platform

/-- R166, R164: an instruction of a running core that ends in FAULTED has not redirected `pc` and has written none of AC, X, Y, SR,
the halt latch, the platform or the monitor; SP only if it is PLA, RTS or JSR, and memory only if it is JSR. The fault record
carries the context of the instruction being stepped, and an access that missed is on record (log entry 19). -/
def Obligations.FaultInExecuteLeavesTheRest : Prop :=
  ∀ (i : Instr) (s t : State), s.run = .running → exec i s = .next t → t.run = .faulted →
    t.pc = s.pc ∧ t.ac = s.ac ∧ t.x = s.x ∧ t.y = s.y ∧ t.sr = s.sr ∧ t.haltLatch = s.haltLatch ∧
    t.platform = s.platform ∧ t.monitor = s.monitor ∧
    (i.mnemonic ∉ [.PLA, .RTS, .JSR] → t.sp = s.sp) ∧
    (i.mnemonic ≠ .JSR → t.mem = s.mem ∧ t.disturbed = s.disturbed) ∧
    ∃ c : Cause, t.faultRecord = some { fault := c.fault, pcInstr := s.latch.pcInstr?, opcode := s.latch.opcode? } ∧
      t.missed = c.missed s.missed

/-- R163: an instruction in indirect,X mode whose `(operand8 + x[X]) mod 256` is 0xFF raises IndirectXPageCross with no access of
its own, everything else as it was; and a Step on it issues the two fetch reads alone, leaves `pc = pc_instr + 2` and nothing else
changed (a monitor has been shown the instruction). Only the eight instructions that have the mode
raise it. -/
def Obligations.IndirectXPageCrossFaults : Prop :=
  (∀ (i : Instr) (n : Byte) (s : State), i.form = .memory (.indirectX n) → (n.toNat + s.x.toNat) % 256 = 0xFF →
    exec i s = .next { s with
      run := .faulted
      faultRecord := some { fault := .indirectXPageCross, pcInstr := s.latch.pcInstr?, opcode := s.latch.opcode? } }) ∧
  (∀ (i : Instr) (n : Byte) (s t : State) (bytes : List Byte), s.platform.wf = true → s.run = .running →
    readBytes bytes.length s.pc s = .ok bytes t → decode bytes = .ok (i, []) →
    i.form = .memory (.indirectX n) → (n.toNat + s.x.toNat) % 256 = 0xFF →
    CoreFault.indirectXPageCross.address? = some 0x00FF ∧ CoreFault.indirectXPageCross.code = 3 ∧
    ∃ u, step s = .next u ∧
      u = { s with
        pc := s.pc + 2
        run := .faulted
        latch := .empty
        bus := t.bus
        monitor := u.monitor
        faultRecord := some { fault := .indirectXPageCross, pcInstr := some s.pc, opcode := some i.opcode } }) ∧
  ∀ (i : Instr) (s t : State) (r : FaultRecord), exec i s = .next t → t.faultRecord = some r →
    r.fault = .indirectXPageCross → s.faultRecord ≠ some r →
    (i.mnemonic, i.opcode) ∈ [(Mnemonic.ADC, (0x61 : Byte)), (.AND, 0x21), (.CMP, 0xC1), (.EOR, 0x41), (.LDA, 0xA1),
      (.ORA, 0x01), (.SBC, 0xE1), (.STA, 0x81)]

/-- R35, R162: when the bindings cover every address, an instruction whose indirect,X pointer (if it has one) stays in page 0 runs
to its end without a fault. So no instruction stops on ordinary data. -/
def Obligations.NoFaultWhenEveryAddressIsMapped : Prop :=
  ∀ (i : Instr) (s : State), (∀ a, s.mapped a = true) →
    (∀ n, i.form = .memory (.indirectX n) → n + s.x ≠ 0xFF) →
    ∃ t, exec i s = .next t ∧ t.faultRecord = s.faultRecord ∧ t.run = if i.mnemonic = .HLT then .halted else s.run

/-! ## Bus and memory -/

/-- R32, R36: an address is delivered to the first binding, in attachment order, that covers it, at the local address
`a - base`, which lies below the backend's size; an address none covers is delivered nowhere. -/
def Obligations.FirstCoveringBindingIsUsed : Prop :=
  (∀ (pl : Platform) (a : Address) (p : Place), route pl a = some p ↔
    ∃ before b after k, pl.bindings = before ++ b :: after ∧ (∀ c ∈ before, ¬ Covers pl c a) ∧ Covers pl b a ∧
      pl.backends[b.backend]? = some k ∧
      p = { backend := b.backend, kind := k.kind, localAddr := a.toNat - b.base.toNat } ∧ p.localAddr < k.size) ∧
  ∀ (pl : Platform) (a : Address), route pl a = none ↔ ∀ b ∈ pl.bindings, ¬ Covers pl b a

/-- R33, R34, R35: an access at a covered address is delivered exactly once, a read changing nothing but the bus; at an address no
binding covers it raises BusFault with the missed address and the direction, nothing is delivered, and the miss is on record with
the byte of a write (R7; the record is the model's own, log entry 19). -/
def Obligations.AccessIsDeliveredOnceOrFaults : Prop :=
  ∀ (s : State) (a : Address) (v : Byte),
    (∀ p, route s.platform a = some p →
      memRead a s = .ok (s.answer p) { s with bus := .read a p.backend p.localAddr (s.answer p) :: s.bus } ∧
      ∃ t, memWrite a v s = .ok () t ∧
        t = { s with mem := t.mem, disturbed := t.disturbed, bus := .write a p.backend p.localAddr v :: s.bus }) ∧
    (route s.platform a = none →
      (∃ t, memRead a s = .raised t ∧ EndsFaulted s t (.busFault (.read a)) ∧ t.bus = s.bus) ∧
      ∃ t, memWrite a v s = .raised t ∧ EndsFaulted s t (.busFault (.write a v)) ∧ t.bus = s.bus)

/-- R45, R41: a RAM location reads as the byte last written to it, and a write to RAM changes no other byte of memory, whichever
addresses name them. -/
def Obligations.RamReadsTheByteLastWritten : Prop :=
  ∀ (s t : State) (a : Address) (v : Byte) (p : Place), Memory.wf s.mem = true → route s.platform a = some p → p.kind = .ram →
    memWrite a v s = .ok () t →
    (∃ u, memRead a t = .ok v u) ∧
    (∀ b q, route s.platform b = some q → q.backend = p.backend → q.localAddr = p.localAddr → t.peek b = some v) ∧
    ∀ b q, route s.platform b = some q → ¬ (q.backend = p.backend ∧ q.localAddr = p.localAddr) → t.peek b = s.peek b

/-- R37: a 16-bit value is read low byte first from `a`, then high byte from `(a + 1) mod 65536`, each looked up on its own. -/
def Obligations.Read16IsLittleEndian : Prop :=
  ∀ (s : State) (a : Address) (p q : Place), route s.platform a = some p →
    route s.platform (BitVec.ofNat 16 ((a.toNat + 1) % 65536)) = some q →
    ∃ w t h, memRead16 a s = .ok w t ∧ w.toNat = h.toNat * 256 + (s.answer p).toNat ∧
      t = { s with bus := .read (BitVec.ofNat 16 ((a.toNat + 1) % 65536)) q.backend q.localAddr h ::
                          .read a p.backend p.localAddr (s.answer p) :: s.bus } ∧
      ∀ v, s.peek (BitVec.ofNat 16 ((a.toNat + 1) % 65536)) = some v → h = v

/-! ## The address-mode resolver -/

/-- R65, R66, R67, R69, R70: the effective addresses of the direct modes. The zero-page sums wrap inside page 0, the absolute ones
modulo 65536; none of them touches the bus. -/
def Obligations.DirectModesResolve : Prop :=
  ∀ (s : State) (n : Byte) (w : Address),
    ea (.zeropage n) s = .ok (BitVec.ofNat 16 n.toNat) s ∧
    ea (.zeropageX n) s = .ok (BitVec.ofNat 16 ((n.toNat + s.x.toNat) % 256)) s ∧
    ea (.zeropageY n) s = .ok (BitVec.ofNat 16 ((n.toNat + s.y.toNat) % 256)) s ∧
    ea (.absolute w) s = .ok w s ∧
    ea (.absoluteX w) s = .ok (BitVec.ofNat 16 ((w.toNat + s.x.toNat) % 65536)) s ∧
    ea (.absoluteY w) s = .ok (BitVec.ofNat 16 ((w.toNat + s.y.toNat) % 65536)) s ∧
    (∀ i : Instr, i.form.mode = .zeropageY → i.mnemonic ∈ [.LDX, .STX])

/-- R71: indirect,X reads its pointer at `zp = (operand8 + x[X]) mod 256`, low byte first, and faults
with no access when `zp` is 0xFF. A pointer byte no binding covers raises BusFault after the accesses before it. -/
def Obligations.IndirectXResolves : Prop :=
  ∀ (s : State) (n : Byte) (zp : Nat), zp = (n.toNat + s.x.toNat) % 256 →
    (zp = 0xFF → ∃ t, ea (.indirectX n) s = .raised t ∧ EndsFaulted s t .indirectXPageCross ∧ t.bus = s.bus) ∧
    (zp ≠ 0xFF → ∀ p q, route s.platform (BitVec.ofNat 16 zp) = some p → route s.platform (BitVec.ofNat 16 (zp + 1)) = some q →
      ∃ a t h, ea (.indirectX n) s = .ok a t ∧ a.toNat = h.toNat * 256 + (s.answer p).toNat ∧
        t = { s with bus := .read (BitVec.ofNat 16 (zp + 1)) q.backend q.localAddr h ::
                            .read (BitVec.ofNat 16 zp) p.backend p.localAddr (s.answer p) :: s.bus } ∧
        ∀ v, s.peek (BitVec.ofNat 16 (zp + 1)) = some v → h = v) ∧
    (zp ≠ 0xFF → route s.platform (BitVec.ofNat 16 zp) = none →
      ∃ t, ea (.indirectX n) s = .raised t ∧ EndsFaulted s t (.busFault (.read (BitVec.ofNat 16 zp))) ∧ t.bus = s.bus) ∧
    (zp ≠ 0xFF → ∀ p, route s.platform (BitVec.ofNat 16 zp) = some p → route s.platform (BitVec.ofNat 16 (zp + 1)) = none →
      ∃ t, ea (.indirectX n) s = .raised t ∧ EndsFaulted s t (.busFault (.read (BitVec.ofNat 16 (zp + 1)))) ∧
        t.bus = .read (BitVec.ofNat 16 zp) p.backend p.localAddr (s.answer p) :: s.bus)

/-- R72: indirect,Y reads its base at `operand8`, low byte first, and adds Y modulo 65536. With `operand8 = 0xFF` the high byte
comes from 0x0100 (D13), with no page condition. A pointer byte no binding covers raises BusFault. -/
def Obligations.IndirectYResolves : Prop :=
  ∀ (s : State) (n : Byte) (l h : Address), l = BitVec.ofNat 16 n.toNat → h = BitVec.ofNat 16 (n.toNat + 1) →
    (∀ p q, route s.platform l = some p → route s.platform h = some q →
      ∃ a t v, ea (.indirectY n) s = .ok a t ∧
        a.toNat = (v.toNat * 256 + (s.answer p).toNat + s.y.toNat) % 65536 ∧
        t = { s with bus := .read h q.backend q.localAddr v :: .read l p.backend p.localAddr (s.answer p) :: s.bus } ∧
        ∀ b, s.peek h = some b → v = b) ∧
    (route s.platform l = none →
      ∃ t, ea (.indirectY n) s = .raised t ∧ EndsFaulted s t (.busFault (.read l)) ∧ t.bus = s.bus) ∧
    ∀ p, route s.platform l = some p → route s.platform h = none →
      ∃ t, ea (.indirectY n) s = .raised t ∧ EndsFaulted s t (.busFault (.read h)) ∧
        t.bus = .read l p.backend p.localAddr (s.answer p) :: s.bus

/-- R74: the operand is `operand8` itself with no access in immediate mode, and otherwise one data read at the effective address,
after the pointer reads of the mode. -/
def Obligations.OperandIsReadOnce : Prop :=
  ∀ (s : State),
    (∀ n : Byte, operand (.immediate n) s = .ok n s) ∧
    ∀ (f : MemForm) (a : Address) (t : State), ea f s = .ok a t →
      (∀ p, route s.platform a = some p →
        operand (.memory f) s = .ok (t.answer p) { s with bus := .read a p.backend p.localAddr (t.answer p) :: t.bus }) ∧
      (route s.platform a = none → ∃ u, operand (.memory f) s = .raised u ∧ EndsFaulted s u (.busFault (.read a)) ∧ u.bus = t.bus)

/-! ## Arithmetic, logic, compare, load -/

/-- R80: ADC in its eight modes. AC takes the sum of AC, the operand and C modulo 256, C is bit 8 of the sum, Z and N reflect the
new AC; every other flag (V and D among them), register and byte of memory is as before. On a fault of the operand neither AC
nor any flag has been written. -/
def Obligations.AdcAddsWithCarry : Prop :=
  ∀ (i : Instr) (src : Source) (s : State), i.mnemonic = .ADC → i.form.source? = some src →
    (i.form.mode, i.opcode) ∈ [(Mode.immediate, (0x69 : Byte)), (.zeropage, 0x65), (.zeropageX, 0x75), (.absolute, 0x6D),
      (.absoluteX, 0x7D), (.absoluteY, 0x79), (.indirectX, 0x61), (.indirectY, 0x71)] ∧
    (∀ (m : Byte) (t : State), operand src s = .ok m t →
      ∃ u, exec i s = .next u ∧
        u.ac.toNat = (s.ac.toNat + m.toNat + (flag s.sr .C).toNat) % 256 ∧
        flag u.sr .C = decide (256 ≤ s.ac.toNat + m.toNat + (flag s.sr .C).toNat) ∧
        ReflectsZN u.sr u.ac ∧ FlagsKept [.C, .Z, .N] s.sr u.sr ∧
        u = { s with ac := u.ac, sr := u.sr, bus := t.bus }) ∧
    ∀ t, operand src s = .raised t → exec i s = .next t ∧ ∃ f, EndsFaulted s t f ∧ IsReadFault i f

/-- R81: SBC in its eight modes. With `t = AC - M - (1 - C)` a signed integer, AC takes `t` modulo 256, C is 1 exactly when `t` is
not negative (D5), Z and N reflect the new AC; everything else is as before. On a fault of the operand nothing is written. -/
def Obligations.SbcSubtractsWithBorrow : Prop :=
  ∀ (i : Instr) (src : Source) (s : State), i.mnemonic = .SBC → i.form.source? = some src →
    (i.form.mode, i.opcode) ∈ [(Mode.immediate, (0xE9 : Byte)), (.zeropage, 0xE5), (.zeropageX, 0xF5), (.absolute, 0xED),
      (.absoluteX, 0xFD), (.absoluteY, 0xF9), (.indirectX, 0xE1), (.indirectY, 0xF1)] ∧
    (∀ (m : Byte) (t : State), operand src s = .ok m t →
      ∃ u, exec i s = .next u ∧
        (u.ac.toNat : Int) = ((s.ac.toNat : Int) - m.toNat - (1 - (flag s.sr .C).toNat)) % 256 ∧
        flag u.sr .C = decide ((0 : Int) ≤ (s.ac.toNat : Int) - m.toNat - (1 - (flag s.sr .C).toNat)) ∧
        ReflectsZN u.sr u.ac ∧ FlagsKept [.C, .Z, .N] s.sr u.sr ∧
        u = { s with ac := u.ac, sr := u.sr, bus := t.bus }) ∧
    ∀ t, operand src s = .raised t → exec i s = .next t ∧ ∃ f, EndsFaulted s t f ∧ IsReadFault i f

/-- R81, corner cases: SBC "agrees bit for bit with adding the one's complement": on every state and operand it leaves the state
that ADC of the complement leaves. -/
def Obligations.SbcIsAdcOfTheComplement : Prop :=
  ∀ (m : Byte) (s : State), exec (.sbcImm m) s = exec (.adcImm (m ^^^ 0xFF)) s

/-- R85, R86, R87: the logical instructions in their eight modes. Each bit of AC takes the and, or, exclusive or of that bit of AC
and of the operand; Z and N reflect the new AC; everything else is as before. On a fault of the operand nothing is written. -/
def Obligations.LogicalInstructionsCombineBitwise : Prop :=
  ∀ (i : Instr) (src : Source) (s : State), i.mnemonic ∈ [.AND, .ORA, .EOR] → i.form.source? = some src →
    (i.mnemonic, i.form.mode, i.opcode) ∈
      [(Mnemonic.AND, Mode.immediate, (0x29 : Byte)), (.AND, .zeropage, 0x25), (.AND, .zeropageX, 0x35), (.AND, .absolute, 0x2D),
       (.AND, .absoluteX, 0x3D), (.AND, .absoluteY, 0x39), (.AND, .indirectX, 0x21), (.AND, .indirectY, 0x31),
       (.ORA, .immediate, 0x09), (.ORA, .zeropage, 0x05), (.ORA, .zeropageX, 0x15), (.ORA, .absolute, 0x0D),
       (.ORA, .absoluteX, 0x1D), (.ORA, .absoluteY, 0x19), (.ORA, .indirectX, 0x01), (.ORA, .indirectY, 0x11),
       (.EOR, .immediate, 0x49), (.EOR, .zeropage, 0x45), (.EOR, .zeropageX, 0x55), (.EOR, .absolute, 0x4D),
       (.EOR, .absoluteX, 0x5D), (.EOR, .absoluteY, 0x59), (.EOR, .indirectX, 0x41), (.EOR, .indirectY, 0x51)] ∧
    (∀ (m : Byte) (t : State), operand src s = .ok m t →
      ∃ u, exec i s = .next u ∧
        (∀ k, u.ac.getLsbD k =
          if i.mnemonic = .AND then s.ac.getLsbD k && m.getLsbD k
          else if i.mnemonic = .ORA then s.ac.getLsbD k || m.getLsbD k
          else xor (s.ac.getLsbD k) (m.getLsbD k)) ∧
        ReflectsZN u.sr u.ac ∧ FlagsKept [.Z, .N] s.sr u.sr ∧
        u = { s with ac := u.ac, sr := u.sr, bus := t.bus }) ∧
    ∀ t, operand src s = .raised t → exec i s = .next t ∧ ∃ f, EndsFaulted s t f ∧ IsReadFault i f

/-- R95 to R98: CMP, CPX and CPY in all their modes. C is `register >= operand` unsigned, Z and N reflect the difference modulo
256; no register and no other flag is written. On a fault of the operand no flag has been written. -/
def Obligations.ComparesSetFlagsOnly : Prop :=
  ∀ (i : Instr) (src : Source) (s : State) (r : Reg),
    (i.mnemonic, r) ∈ [(Mnemonic.CMP, Reg.ac), (.CPX, .x), (.CPY, .y)] → i.form.source? = some src →
    (i.mnemonic, i.form.mode, i.opcode) ∈
      [(Mnemonic.CMP, Mode.immediate, (0xC9 : Byte)), (.CMP, .zeropage, 0xC5), (.CMP, .zeropageX, 0xD5), (.CMP, .absolute, 0xCD),
       (.CMP, .absoluteX, 0xDD), (.CMP, .absoluteY, 0xD9), (.CMP, .indirectX, 0xC1), (.CMP, .indirectY, 0xD1),
       (.CPX, .immediate, 0xE0), (.CPX, .zeropage, 0xE4), (.CPX, .absolute, 0xEC),
       (.CPY, .immediate, 0xC0), (.CPY, .zeropage, 0xC4), (.CPY, .absolute, 0xCC)] ∧
    (∀ (m : Byte) (t : State), operand src s = .ok m t →
      ∃ u, exec i s = .next u ∧
        flag u.sr .C = decide (m.toNat ≤ (s.reg r).toNat) ∧
        ReflectsZN u.sr (BitVec.ofNat 8 (((s.reg r).toNat + 256 - m.toNat) % 256)) ∧
        flag u.sr .Z = decide (s.reg r = m) ∧
        FlagsKept [.C, .Z, .N] s.sr u.sr ∧
        u = { s with sr := u.sr, bus := t.bus }) ∧
    ∀ t, operand src s = .raised t → exec i s = .next t ∧ ∃ f, EndsFaulted s t f ∧ IsReadFault i f

/-- R145, R146, R147: LDA, LDX and LDY in all their modes. The register takes the operand, Z and N reflect it; everything else is
as before. On a fault of the operand nothing is written. -/
def Obligations.LoadsPutTheOperandInTheRegister : Prop :=
  ∀ (i : Instr) (src : Source) (s : State) (r : Reg),
    (i.mnemonic, r) ∈ [(Mnemonic.LDA, Reg.ac), (.LDX, .x), (.LDY, .y)] → i.form.source? = some src →
    (i.mnemonic, i.form.mode, i.opcode) ∈
      [(Mnemonic.LDA, Mode.immediate, (0xA9 : Byte)), (.LDA, .zeropage, 0xA5), (.LDA, .zeropageX, 0xB5), (.LDA, .absolute, 0xAD),
       (.LDA, .absoluteX, 0xBD), (.LDA, .absoluteY, 0xB9), (.LDA, .indirectX, 0xA1), (.LDA, .indirectY, 0xB1),
       (.LDX, .immediate, 0xA2), (.LDX, .zeropage, 0xA6), (.LDX, .zeropageY, 0xB6), (.LDX, .absolute, 0xAE),
       (.LDX, .absoluteY, 0xBE), (.LDY, .immediate, 0xA0), (.LDY, .zeropage, 0xA4), (.LDY, .zeropageX, 0xB4),
       (.LDY, .absolute, 0xAC), (.LDY, .absoluteX, 0xBC)] ∧
    (∀ (m : Byte) (t : State), operand src s = .ok m t →
      ∃ u, exec i s = .next u ∧ ReflectsZN u.sr m ∧ FlagsKept [.Z, .N] s.sr u.sr ∧
        u = { s.setReg r m with sr := u.sr, bus := t.bus }) ∧
    ∀ t, operand src s = .raised t → exec i s = .next t ∧ ∃ f, EndsFaulted s t f ∧ IsReadFault i f

/-! ## Stores and read-modify-writes -/

/-- R148, R149, R150: STA, STX and STY in all their modes. One write of the register at the effective address `a`, and no data
read: for every address `ea` gives, the byte goes there and every other byte, every register and every flag is as before. A
write no binding covers, or a fault of the pointer, leaves everything as it was. -/
def Obligations.StoresWriteTheRegister : Prop :=
  ∀ (i : Instr) (f : MemForm) (s : State) (r : Reg),
    (i.mnemonic, r) ∈ [(Mnemonic.STA, Reg.ac), (.STX, .x), (.STY, .y)] → i.form.memory? = some f →
    (i.mnemonic, i.form.mode, i.opcode) ∈
      [(Mnemonic.STA, Mode.zeropage, (0x85 : Byte)), (.STA, .zeropageX, 0x95), (.STA, .absolute, 0x8D), (.STA, .absoluteX, 0x9D),
       (.STA, .absoluteY, 0x99), (.STA, .indirectX, 0x81), (.STA, .indirectY, 0x91),
       (.STX, .zeropage, 0x86), (.STX, .zeropageY, 0x96), (.STX, .absolute, 0x8E),
       (.STY, .zeropage, 0x84), (.STY, .zeropageX, 0x94), (.STY, .absolute, 0x8C)] ∧
    (∀ (a : Address) (t : State) (p : Place), ea f s = .ok a t → route s.platform a = some p →
      ∃ u, exec i s = .next u ∧ StoresByte s u a p (s.reg r) ∧
        u = { s with mem := u.mem, disturbed := u.disturbed, bus := .write a p.backend p.localAddr (s.reg r) :: t.bus }) ∧
    (∀ (a : Address) (t : State), ea f s = .ok a t → route s.platform a = none →
      ∃ u, exec i s = .next u ∧ EndsFaulted s u (.busFault (.write a (s.reg r))) ∧ u.bus = t.bus) ∧
    ∀ t, ea f s = .raised t → exec i s = .next t ∧ ∃ g, EndsFaulted s t g ∧ IsReadFault i g

/-- R100, R101: INC and DEC in their four modes. One read and one write at the effective address; the byte there goes up or down
by one modulo 256, Z and N reflect it; C, V and everything else are as before. A read no binding covers leaves everything as it
was. -/
def Obligations.IncDecCountTheByte : Prop :=
  ∀ (i : Instr) (f : MemForm) (s : State), i.mnemonic ∈ [.INC, .DEC] → i.form.memory? = some f →
    (i.mnemonic, i.form.mode, i.opcode) ∈
      [(Mnemonic.INC, Mode.zeropage, (0xE6 : Byte)), (.INC, .zeropageX, 0xF6), (.INC, .absolute, 0xEE), (.INC, .absoluteX, 0xFE),
       (.DEC, .zeropage, 0xC6), (.DEC, .zeropageX, 0xD6), (.DEC, .absolute, 0xCE), (.DEC, .absoluteX, 0xDE)] ∧
    (∃ a, ea f s = .ok a s) ∧
    (∀ (a : Address) (p : Place), ea f s = .ok a s → route s.platform a = some p →
      ∃ u r, exec i s = .next u ∧
        r = BitVec.ofNat 8 (((s.answer p).toNat + if i.mnemonic = .INC then 1 else 255) % 256) ∧
        ReflectsZN u.sr r ∧ FlagsKept [.Z, .N] s.sr u.sr ∧ StoresByte s u a p r ∧
        u = { s with sr := u.sr, mem := u.mem, disturbed := u.disturbed,
                     bus := .write a p.backend p.localAddr r :: .read a p.backend p.localAddr (s.answer p) :: s.bus }) ∧
    ∀ a, ea f s = .ok a s → route s.platform a = none →
      ∃ u, exec i s = .next u ∧ EndsFaulted s u (.busFault (.read a)) ∧ u.bus = s.bus

/-- R90 to R94. In accumulator mode AC takes the result, with no bus access. In the memory modes there is one read and one write at
the effective address, and the byte there takes the result while AC is as before. In both C is the bit shifted out, Z and N
reflect the result, and everything else is as before. A read no binding covers leaves everything as it was. -/
def Obligations.ShiftsMoveOneBit : Prop :=
  (∀ (i : Instr) (s : State) (r : Nat) (k : Bool), i.form = .accumulator →
    shiftSpec i.mnemonic s.ac (flag s.sr .C) = some (r, k) →
    (i.mnemonic, i.opcode) ∈ [(Mnemonic.ASL, (0x0A : Byte)), (.LSR, 0x4A), (.ROL, 0x2A), (.ROR, 0x6A)] ∧
    ∃ u, exec i s = .next u ∧ u.ac.toNat = r ∧ flag u.sr .C = k ∧ ReflectsZN u.sr u.ac ∧
      FlagsKept [.C, .Z, .N] s.sr u.sr ∧ u = { s with ac := u.ac, sr := u.sr }) ∧
  ∀ (i : Instr) (f : MemForm) (s : State), i.mnemonic ∈ [.ASL, .LSR, .ROL, .ROR] → i.form.memory? = some f →
    (i.mnemonic, i.form.mode, i.opcode) ∈
      [(Mnemonic.ASL, Mode.zeropage, (0x06 : Byte)), (.ASL, .zeropageX, 0x16), (.ASL, .absolute, 0x0E), (.ASL, .absoluteX, 0x1E),
       (.LSR, .zeropage, 0x46), (.LSR, .zeropageX, 0x56), (.LSR, .absolute, 0x4E), (.LSR, .absoluteX, 0x5E),
       (.ROL, .zeropage, 0x26), (.ROL, .zeropageX, 0x36), (.ROL, .absolute, 0x2E), (.ROL, .absoluteX, 0x3E),
       (.ROR, .zeropage, 0x66), (.ROR, .zeropageX, 0x76), (.ROR, .absolute, 0x6E), (.ROR, .absoluteX, 0x7E)] ∧
    (∃ a, ea f s = .ok a s) ∧
    (∀ (a : Address) (p : Place) (r : Nat) (k : Bool), ea f s = .ok a s → route s.platform a = some p →
      shiftSpec i.mnemonic (s.answer p) (flag s.sr .C) = some (r, k) →
      ∃ u, exec i s = .next u ∧ flag u.sr .C = k ∧ ReflectsZN u.sr (BitVec.ofNat 8 r) ∧
        FlagsKept [.C, .Z, .N] s.sr u.sr ∧ StoresByte s u a p (BitVec.ofNat 8 r) ∧
        u = { s with sr := u.sr, mem := u.mem, disturbed := u.disturbed,
                     bus := .write a p.backend p.localAddr (BitVec.ofNat 8 r) ::
                            .read a p.backend p.localAddr (s.answer p) :: s.bus }) ∧
    ∀ a, ea f s = .ok a s → route s.platform a = none →
      ∃ u, exec i s = .next u ∧ EndsFaulted s u (.busFault (.read a)) ∧ u.bus = s.bus

/-! ## Registers and flags -/

/-- R102 to R105: INX, DEX, INY, DEY. The register goes up or down by one modulo 256, Z and N reflect it; nothing else changes. -/
def Obligations.IndexRegistersCount : Prop :=
  ∀ (i : Instr) (s : State) (r : Reg) (step : Nat) (op : Byte),
    (i, r, step, op) ∈ [(Instr.inx, Reg.x, 1, (0xE8 : Byte)), (.dex, .x, 255, 0xCA), (.iny, .y, 1, 0xC8), (.dey, .y, 255, 0x88)] →
    i.opcode = op ∧
    ∃ u v, exec i s = .next u ∧ v = BitVec.ofNat 8 (((s.reg r).toNat + step) % 256) ∧
      ReflectsZN u.sr v ∧ FlagsKept [.Z, .N] s.sr u.sr ∧ u = { s.setReg r v with sr := u.sr }

/-- R127 to R130: TAX, TAY, TXA, TYA. The destination takes the source, Z and N reflect it; nothing else changes. -/
def Obligations.TransfersCopyAndSetFlags : Prop :=
  ∀ (i : Instr) (s : State) (source dest : Reg) (op : Byte),
    (i, source, dest, op) ∈
      [(Instr.tax, Reg.ac, Reg.x, (0xAA : Byte)), (.tay, .ac, .y, 0xA8), (.txa, .x, .ac, 0x8A), (.tya, .y, .ac, 0x98)] →
    i.opcode = op ∧
    ∃ u, exec i s = .next u ∧ ReflectsZN u.sr (s.reg source) ∧ FlagsKept [.Z, .N] s.sr u.sr ∧
      u = { s.setReg dest (s.reg source) with sr := u.sr }

/-- R131: TXS copies X to SP and writes no flag. -/
def Obligations.TxsWritesNoFlag : Prop :=
  Instr.txs.opcode = 0x9A ∧ ∀ s : State, exec .txs s = .next { s with sp := s.x }

/-- R135 to R139: CLC, SEC, CLI, SEI, CLD. The one named bit takes its value; nothing else changes. -/
def Obligations.FlagInstructionsWriteOneBit : Prop :=
  ∀ (i : Instr) (s : State) (f : Flag) (b : Bool) (op : Byte),
    (i, f, b, op) ∈ [(Instr.clc, Flag.C, false, (0x18 : Byte)), (.sec, .C, true, 0x38), (.cli, .I, false, 0x58),
      (.sei, .I, true, 0x78), (.cld, .D, false, 0xD8)] →
    i.opcode = op ∧
    ∃ u, exec i s = .next u ∧ flag u.sr f = b ∧ FlagsKept [f] s.sr u.sr ∧ u = { s with sr := u.sr }

/-- R140: NOP changes nothing, and a Step on it leaves `pc = (pc_instr + 1) mod 65536` and changes no other register, flag or byte
of memory. -/
def Obligations.NopOnlyAdvances : Prop :=
  Instr.nop.opcode = 0xEA ∧ (∀ s : State, exec .nop s = .next s) ∧
  ∀ (s t : State), s.platform.wf = true → s.run = .running → s.monitor = none → memRead s.pc s = .ok 0xEA t →
    step s = .next { s with pc := BitVec.ofNat 16 ((s.pc.toNat + 1) % 65536), latch := .empty, bus := t.bus }

/-- R141: HLT puts X in the halt latch and the core in HALTED; no register, flag or memory location changes, a Step on it leaves
`pc = (pc_instr + 1) mod 65536`, and no Step is taken after it. -/
def Obligations.HltEndsTheRun : Prop :=
  Instr.hlt.opcode = 0xFF ∧ (∀ s : State, exec .hlt s = .next { s with haltLatch := s.x, run := .halted }) ∧
  ∀ (s t : State), s.platform.wf = true → s.run = .running → s.monitor = none → memRead s.pc s = .ok 0xFF t →
    ∃ u, step s = .next u ∧ step u = .fault .haltedCore ∧
      u = { s with pc := BitVec.ofNat 16 ((s.pc.toNat + 1) % 65536), haltLatch := s.x, run := .halted, latch := .empty,
                   bus := t.bus }

/-! ## Branches and jumps -/

/-- R110 to R116, R73: the six branches. If the condition holds `pc` takes `pc + sext_16(operand8)` modulo 65536, else it stays;
nothing else changes and there is no bus access. Every relative-mode instruction is one of the six. -/
def Obligations.BranchesMovePcOnTheirCondition : Prop :=
  ∀ (i : Instr) (n : Byte) (s : State), i.form = .relative n →
    (i.mnemonic, i.opcode) ∈ [(Mnemonic.BCC, (0x90 : Byte)), (.BCS, 0xB0), (.BEQ, 0xF0), (.BNE, 0xD0), (.BMI, 0x30), (.BPL, 0x10)] ∧
    ∃ c, branchSpec i.mnemonic s.sr = some c ∧
      exec i s = .next { s with pc := if c then BitVec.ofInt 16 (((s.pc.toNat : Int) + n.toInt) % 65536) else s.pc }

/-- R120: JMP sets `pc` to its operand and changes nothing else; the target is not read. The absolute form is its only one, and
0x6C is illegal. -/
def Obligations.JmpSetsPc : Prop :=
  (∀ w : Address, (Instr.jmp w).opcode = 0x4C ∧ (Instr.jmp w).form = .memory (.absolute w)) ∧
  (∀ i : Instr, i.mnemonic = .JMP → ∃ w, i = .jmp w) ∧ descriptor 0x6C = none ∧
  ∀ (w : Address) (s : State), exec (.jmp w) s = .next { s with pc := w }

/-- R121: JSR writes the high byte of `pc - 1` at the address SP names and the low byte one below, wrapping inside page 1, leaves SP
two lower and sets `pc` to the operand; no flag is written and every other byte reads as before. If the first write faults SP and
`pc` are as on entry; if the second does, SP has gone down once and the high byte has been written. -/
def Obligations.JsrPushesTheReturnAddress : Prop :=
  ∀ (w : Address) (s : State) (ret : Nat) (hiAddr loAddr : Address), ret = (s.pc.toNat + 65535) % 65536 →
    hiAddr = BitVec.ofNat 16 (0x0100 + s.sp.toNat) → loAddr = BitVec.ofNat 16 (0x0100 + (s.sp.toNat + 255) % 256) →
    (Instr.jsr w).opcode = 0x20 ∧
    (∀ p q, route s.platform hiAddr = some p → route s.platform loAddr = some q →
      ∃ u, exec (.jsr w) s = .next u ∧
        u = { s with
          pc := w, sp := s.sp - 2, mem := u.mem, disturbed := u.disturbed
          bus := .write loAddr q.backend q.localAddr (BitVec.ofNat 8 (ret % 256)) ::
                 .write hiAddr p.backend p.localAddr (BitVec.ofNat 8 (ret / 256)) :: s.bus } ∧
        (Memory.wf s.mem = true → q.kind = .ram → u.peek loAddr = some (BitVec.ofNat 8 (ret % 256))) ∧
        (Memory.wf s.mem = true → p.kind = .ram → p.key ≠ q.key → u.peek hiAddr = some (BitVec.ofNat 8 (ret / 256))) ∧
        ∀ b r, route s.platform b = some r → r.key ≠ p.key → r.key ≠ q.key →
          (p.kind = .rom → r.backend ≠ p.backend) → (q.kind = .rom → r.backend ≠ q.backend) → u.peek b = s.peek b) ∧
    (route s.platform hiAddr = none →
      ∃ u, exec (.jsr w) s = .next u ∧ EndsFaulted s u (.busFault (.write hiAddr (BitVec.ofNat 8 (ret / 256)))) ∧ u.bus = s.bus) ∧
    ∀ p, route s.platform hiAddr = some p → route s.platform loAddr = none →
      ∃ u, exec (.jsr w) s = .next u ∧
        EndsFaulted { s with sp := s.sp - 1, mem := u.mem, disturbed := u.disturbed } u
          (.busFault (.write loAddr (BitVec.ofNat 8 (ret % 256)))) ∧
        u.bus = .write hiAddr p.backend p.localAddr (BitVec.ofNat 8 (ret / 256)) :: s.bus ∧
        StoresByte s u hiAddr p (BitVec.ofNat 8 (ret / 256))

/-- R122: RTS pulls the low byte and then the high byte, leaves SP two higher and sets `pc` to the word pulled plus one; no flag and
no byte of memory changes. If the first read faults SP has gone up once, if the second does twice. -/
def Obligations.RtsPullsTheReturnAddress : Prop :=
  ∀ (s : State) (loAddr hiAddr : Address), loAddr = BitVec.ofNat 16 (0x0100 + (s.sp.toNat + 1) % 256) →
    hiAddr = BitVec.ofNat 16 (0x0100 + (s.sp.toNat + 2) % 256) →
    Instr.rts.opcode = 0x60 ∧
    (∀ p q, route s.platform loAddr = some p → route s.platform hiAddr = some q →
      ∃ u h, exec .rts s = .next u ∧
        u.pc.toNat = (h.toNat * 256 + (s.answer p).toNat + 1) % 65536 ∧
        u = { s with
          pc := u.pc, sp := s.sp + 2
          bus := .read hiAddr q.backend q.localAddr h :: .read loAddr p.backend p.localAddr (s.answer p) :: s.bus } ∧
        ∀ v, s.peek hiAddr = some v → h = v) ∧
    (route s.platform loAddr = none →
      ∃ u, exec .rts s = .next u ∧ EndsFaulted { s with sp := s.sp + 1 } u (.busFault (.read loAddr)) ∧ u.bus = s.bus) ∧
    ∀ p, route s.platform loAddr = some p → route s.platform hiAddr = none →
      ∃ u, exec .rts s = .next u ∧ EndsFaulted { s with sp := s.sp + 2 } u (.busFault (.read hiAddr)) ∧
        u.bus = .read loAddr p.backend p.localAddr (s.answer p) :: s.bus

/-- R121, R122, 95_test_vectors.md W5: JSR then RTS, wherever the subroutine is, restores the `pc` after the JSR and SP, when two
different RAM bytes stand behind the two stack addresses. -/
def Obligations.RtsReturnsAfterJsr : Prop :=
  ∀ (w there : Address) (s t : State) (p q : Place), Memory.wf s.mem = true →
    route s.platform (stackAddr s.sp) = some p → route s.platform (stackAddr (s.sp - 1)) = some q →
    p.kind = .ram → q.kind = .ram → ¬ (p.backend = q.backend ∧ p.localAddr = q.localAddr) →
    exec (.jsr w) s = .next t →
    ∃ u, exec .rts { t with pc := there } = .next u ∧ u.pc = s.pc ∧ u.sp = s.sp ∧ u.ac = s.ac ∧ u.x = s.x ∧ u.y = s.y ∧
      u.sr = s.sr ∧ u.run = s.run

/-! ## The stack -/

/-- R125, R28: PHA writes AC at the address SP names and then lowers SP by one, wrapping inside page 1; no flag is written and every
other byte reads as before. If the write faults SP is unchanged. -/
def Obligations.PhaPushesTheAccumulator : Prop :=
  ∀ (s : State) (a : Address), a = BitVec.ofNat 16 (0x0100 + s.sp.toNat) →
    Instr.pha.opcode = 0x48 ∧
    (∀ p, route s.platform a = some p →
      ∃ u, exec .pha s = .next u ∧ StoresByte s u a p s.ac ∧
        u = { s with sp := BitVec.ofNat 8 ((s.sp.toNat + 255) % 256), mem := u.mem, disturbed := u.disturbed
                     bus := .write a p.backend p.localAddr s.ac :: s.bus }) ∧
    (route s.platform a = none → ∃ u, exec .pha s = .next u ∧ EndsFaulted s u (.busFault (.write a s.ac)) ∧ u.bus = s.bus)

/-- R126, R29: PLA raises SP by one, wrapping inside page 1, and AC takes the byte it then names; Z and N reflect it (D9); nothing
else changes. If the read faults SP has gone up, and AC and the flags are not written. -/
def Obligations.PlaPullsTheAccumulator : Prop :=
  ∀ (s : State) (a : Address), a = BitVec.ofNat 16 (0x0100 + (s.sp.toNat + 1) % 256) →
    Instr.pla.opcode = 0x68 ∧
    (∀ p, route s.platform a = some p →
      ∃ u, exec .pla s = .next u ∧ ReflectsZN u.sr (s.answer p) ∧ FlagsKept [.Z, .N] s.sr u.sr ∧
        u = { s with ac := s.answer p, sp := BitVec.ofNat 8 ((s.sp.toNat + 1) % 256), sr := u.sr
                     bus := .read a p.backend p.localAddr (s.answer p) :: s.bus }) ∧
    (route s.platform a = none →
      ∃ u, exec .pla s = .next u ∧ EndsFaulted { s with sp := s.sp + 1 } u (.busFault (.read a)) ∧ u.bus = s.bus)

/-! ## Reset and the host -/

/-- R180, R181: Reset, in every run state, reads the vector low byte first and then writes PC, SR = 0x34 and `run`, and nothing
else; it acts between Steps, where the latch is empty. If either vector read misses the bindings, PC and SR are not written and
the core is FAULTED. That the fault record then carries no `pc_instr` is the model's choice (log entry 8): R162 leaves the opcode
out in Reset, and R164 names no `pc_instr` for it. -/
def Obligations.ResetLoadsTheVector : Prop :=
  ∀ s : State, s.platform.wf = true → s.latch = .empty →
    (∀ p q, route s.platform 0xFFFC = some p → route s.platform 0xFFFD = some q →
      ∃ t h, hostReset s = .next t ∧ t.pc.toNat = h.toNat * 256 + (s.answer p).toNat ∧
        t = { s with
          pc := t.pc, sr := 0x34, run := .running
          bus := .read 0xFFFD q.backend q.localAddr h :: .read 0xFFFC p.backend p.localAddr (s.answer p) :: s.bus } ∧
        ∀ v, s.peek 0xFFFD = some v → h = v) ∧
    (route s.platform 0xFFFC = none →
      ∃ t, hostReset s = .next t ∧ EndsFaulted s t (.busFault (.read 0xFFFC)) ∧ t.bus = s.bus) ∧
    ∀ p, route s.platform 0xFFFC = some p → route s.platform 0xFFFD = none →
      ∃ t, hostReset s = .next t ∧ EndsFaulted s t (.busFault (.read 0xFFFD)) ∧
        t.bus = .read 0xFFFC p.backend p.localAddr (s.answer p) :: s.bus

/-- R182: the state right after Reset is what Reset makes of a core just powered on, whatever PC and SR held, and no Step is taken
before that. The model's choices in it: zero AC, X, Y and SP (log entry 1), a zero halt latch (2), the RAM platform with nothing
in it (4), the run state before a Reset (6), no monitor attached (7), and no fault on record (17). -/
def Obligations.ResetStateIsPowerOnThenReset : Prop :=
  ∀ (pc : Address) (sr : Byte),
    hostReset (State.powerOn Config.ramPlatform [] pc sr 0x00 0x00 0x00 0x00 0x00 false) = .next State.reset ∧
    step (State.powerOn Config.ramPlatform [] pc sr 0x00 0x00 0x00 0x00 0x00 false) = .fault .coreNotReset

/-- R176, R181: a host stop takes a running core out of RUNNING and changes nothing else, no Step is taken after it, and a Reset that
can read its vector starts a new run from it. The run state it leaves is the model's choice (log entry 6). -/
def Obligations.HostStopEndsTheRun : Prop :=
  ∀ s : State, s.platform.wf = true → s.run = .running →
    hostStop s = { s with run := .stopped } ∧ step (hostStop s) = .fault .stoppedCore ∧
    ((∀ a, s.mapped a = true) → ∃ t, hostReset (hostStop s) = .next t ∧ t.run = .running ∧ t.ac = s.ac ∧ t.x = s.x ∧
      t.y = s.y ∧ t.sp = s.sp ∧ t.mem = s.mem)
end

