-- ==== Sys2Proof/Laws/State.lean ====
section
/-! SUPPORT. One lemma per field per update of State, so that no proof unfolds an update: which field each named update
writes, and that it leaves every other field as it was. -/

namespace Sys2Proof.Machine

variable (s : State)


/-! ### setReg .ac -/

@[simp] theorem State.setReg_ac_pc (v : Byte) : (s.setReg .ac v).pc = s.pc := rfl
@[simp] theorem State.setReg_ac_ac (v : Byte) : (s.setReg .ac v).ac = v := rfl
@[simp] theorem State.setReg_ac_x (v : Byte) : (s.setReg .ac v).x = s.x := rfl
@[simp] theorem State.setReg_ac_y (v : Byte) : (s.setReg .ac v).y = s.y := rfl
@[simp] theorem State.setReg_ac_sp (v : Byte) : (s.setReg .ac v).sp = s.sp := rfl
@[simp] theorem State.setReg_ac_sr (v : Byte) : (s.setReg .ac v).sr = s.sr := rfl
@[simp] theorem State.setReg_ac_run (v : Byte) : (s.setReg .ac v).run = s.run := rfl
@[simp] theorem State.setReg_ac_latch (v : Byte) : (s.setReg .ac v).latch = s.latch := rfl
@[simp] theorem State.setReg_ac_haltLatch (v : Byte) : (s.setReg .ac v).haltLatch = s.haltLatch := rfl
@[simp] theorem State.setReg_ac_faultRecord (v : Byte) : (s.setReg .ac v).faultRecord = s.faultRecord := rfl
@[simp] theorem State.setReg_ac_platform (v : Byte) : (s.setReg .ac v).platform = s.platform := rfl
@[simp] theorem State.setReg_ac_mem (v : Byte) : (s.setReg .ac v).mem = s.mem := rfl
@[simp] theorem State.setReg_ac_disturbed (v : Byte) : (s.setReg .ac v).disturbed = s.disturbed := rfl
@[simp] theorem State.setReg_ac_bus (v : Byte) : (s.setReg .ac v).bus = s.bus := rfl
@[simp] theorem State.setReg_ac_missed (v : Byte) : (s.setReg .ac v).missed = s.missed := rfl
@[simp] theorem State.setReg_ac_monitor (v : Byte) : (s.setReg .ac v).monitor = s.monitor := rfl

/-! ### setReg .x -/

@[simp] theorem State.setReg_x_pc (v : Byte) : (s.setReg .x v).pc = s.pc := rfl
@[simp] theorem State.setReg_x_ac (v : Byte) : (s.setReg .x v).ac = s.ac := rfl
@[simp] theorem State.setReg_x_x (v : Byte) : (s.setReg .x v).x = v := rfl
@[simp] theorem State.setReg_x_y (v : Byte) : (s.setReg .x v).y = s.y := rfl
@[simp] theorem State.setReg_x_sp (v : Byte) : (s.setReg .x v).sp = s.sp := rfl
@[simp] theorem State.setReg_x_sr (v : Byte) : (s.setReg .x v).sr = s.sr := rfl
@[simp] theorem State.setReg_x_run (v : Byte) : (s.setReg .x v).run = s.run := rfl
@[simp] theorem State.setReg_x_latch (v : Byte) : (s.setReg .x v).latch = s.latch := rfl
@[simp] theorem State.setReg_x_haltLatch (v : Byte) : (s.setReg .x v).haltLatch = s.haltLatch := rfl
@[simp] theorem State.setReg_x_faultRecord (v : Byte) : (s.setReg .x v).faultRecord = s.faultRecord := rfl
@[simp] theorem State.setReg_x_platform (v : Byte) : (s.setReg .x v).platform = s.platform := rfl
@[simp] theorem State.setReg_x_mem (v : Byte) : (s.setReg .x v).mem = s.mem := rfl
@[simp] theorem State.setReg_x_disturbed (v : Byte) : (s.setReg .x v).disturbed = s.disturbed := rfl
@[simp] theorem State.setReg_x_bus (v : Byte) : (s.setReg .x v).bus = s.bus := rfl
@[simp] theorem State.setReg_x_missed (v : Byte) : (s.setReg .x v).missed = s.missed := rfl
@[simp] theorem State.setReg_x_monitor (v : Byte) : (s.setReg .x v).monitor = s.monitor := rfl

/-! ### setReg .y -/

@[simp] theorem State.setReg_y_pc (v : Byte) : (s.setReg .y v).pc = s.pc := rfl
@[simp] theorem State.setReg_y_ac (v : Byte) : (s.setReg .y v).ac = s.ac := rfl
@[simp] theorem State.setReg_y_x (v : Byte) : (s.setReg .y v).x = s.x := rfl
@[simp] theorem State.setReg_y_y (v : Byte) : (s.setReg .y v).y = v := rfl
@[simp] theorem State.setReg_y_sp (v : Byte) : (s.setReg .y v).sp = s.sp := rfl
@[simp] theorem State.setReg_y_sr (v : Byte) : (s.setReg .y v).sr = s.sr := rfl
@[simp] theorem State.setReg_y_run (v : Byte) : (s.setReg .y v).run = s.run := rfl
@[simp] theorem State.setReg_y_latch (v : Byte) : (s.setReg .y v).latch = s.latch := rfl
@[simp] theorem State.setReg_y_haltLatch (v : Byte) : (s.setReg .y v).haltLatch = s.haltLatch := rfl
@[simp] theorem State.setReg_y_faultRecord (v : Byte) : (s.setReg .y v).faultRecord = s.faultRecord := rfl
@[simp] theorem State.setReg_y_platform (v : Byte) : (s.setReg .y v).platform = s.platform := rfl
@[simp] theorem State.setReg_y_mem (v : Byte) : (s.setReg .y v).mem = s.mem := rfl
@[simp] theorem State.setReg_y_disturbed (v : Byte) : (s.setReg .y v).disturbed = s.disturbed := rfl
@[simp] theorem State.setReg_y_bus (v : Byte) : (s.setReg .y v).bus = s.bus := rfl
@[simp] theorem State.setReg_y_missed (v : Byte) : (s.setReg .y v).missed = s.missed := rfl
@[simp] theorem State.setReg_y_monitor (v : Byte) : (s.setReg .y v).monitor = s.monitor := rfl

/-! ### setReg .sp -/

@[simp] theorem State.setReg_sp_pc (v : Byte) : (s.setReg .sp v).pc = s.pc := rfl
@[simp] theorem State.setReg_sp_ac (v : Byte) : (s.setReg .sp v).ac = s.ac := rfl
@[simp] theorem State.setReg_sp_x (v : Byte) : (s.setReg .sp v).x = s.x := rfl
@[simp] theorem State.setReg_sp_y (v : Byte) : (s.setReg .sp v).y = s.y := rfl
@[simp] theorem State.setReg_sp_sp (v : Byte) : (s.setReg .sp v).sp = v := rfl
@[simp] theorem State.setReg_sp_sr (v : Byte) : (s.setReg .sp v).sr = s.sr := rfl
@[simp] theorem State.setReg_sp_run (v : Byte) : (s.setReg .sp v).run = s.run := rfl
@[simp] theorem State.setReg_sp_latch (v : Byte) : (s.setReg .sp v).latch = s.latch := rfl
@[simp] theorem State.setReg_sp_haltLatch (v : Byte) : (s.setReg .sp v).haltLatch = s.haltLatch := rfl
@[simp] theorem State.setReg_sp_faultRecord (v : Byte) : (s.setReg .sp v).faultRecord = s.faultRecord := rfl
@[simp] theorem State.setReg_sp_platform (v : Byte) : (s.setReg .sp v).platform = s.platform := rfl
@[simp] theorem State.setReg_sp_mem (v : Byte) : (s.setReg .sp v).mem = s.mem := rfl
@[simp] theorem State.setReg_sp_disturbed (v : Byte) : (s.setReg .sp v).disturbed = s.disturbed := rfl
@[simp] theorem State.setReg_sp_bus (v : Byte) : (s.setReg .sp v).bus = s.bus := rfl
@[simp] theorem State.setReg_sp_missed (v : Byte) : (s.setReg .sp v).missed = s.missed := rfl
@[simp] theorem State.setReg_sp_monitor (v : Byte) : (s.setReg .sp v).monitor = s.monitor := rfl

/-! ### setReg of any register -/

@[simp] theorem State.setReg_pc (r : Reg) (v : Byte) : (s.setReg r v).pc = s.pc := by cases r <;> rfl
@[simp] theorem State.setReg_sr (r : Reg) (v : Byte) : (s.setReg r v).sr = s.sr := by cases r <;> rfl
@[simp] theorem State.setReg_run (r : Reg) (v : Byte) : (s.setReg r v).run = s.run := by cases r <;> rfl
@[simp] theorem State.setReg_latch (r : Reg) (v : Byte) : (s.setReg r v).latch = s.latch := by cases r <;> rfl
@[simp] theorem State.setReg_haltLatch (r : Reg) (v : Byte) : (s.setReg r v).haltLatch = s.haltLatch := by cases r <;> rfl
@[simp] theorem State.setReg_faultRecord (r : Reg) (v : Byte) : (s.setReg r v).faultRecord = s.faultRecord := by cases r <;> rfl
@[simp] theorem State.setReg_platform (r : Reg) (v : Byte) : (s.setReg r v).platform = s.platform := by cases r <;> rfl
@[simp] theorem State.setReg_mem (r : Reg) (v : Byte) : (s.setReg r v).mem = s.mem := by cases r <;> rfl
@[simp] theorem State.setReg_disturbed (r : Reg) (v : Byte) : (s.setReg r v).disturbed = s.disturbed := by cases r <;> rfl
@[simp] theorem State.setReg_bus (r : Reg) (v : Byte) : (s.setReg r v).bus = s.bus := by cases r <;> rfl
@[simp] theorem State.setReg_missed (r : Reg) (v : Byte) : (s.setReg r v).missed = s.missed := by cases r <;> rfl
@[simp] theorem State.setReg_monitor (r : Reg) (v : Byte) : (s.setReg r v).monitor = s.monitor := by cases r <;> rfl
@[simp] theorem State.reg_setReg (r : Reg) (v : Byte) : (s.setReg r v).reg r = v := by cases r <;> rfl
theorem State.reg_setReg_of_ne {q r : Reg} (h : q ≠ r) (v : Byte) : (s.setReg r v).reg q = s.reg q := by
  cases q <;> cases r <;> first | rfl | exact absurd rfl h
theorem State.setReg_eq_of_reg (r : Reg) : s.setReg r (s.reg r) = s := by cases r <;> rfl
@[simp] theorem State.reg_ac : s.reg .ac = s.ac := rfl
@[simp] theorem State.reg_x : s.reg .x = s.x := rfl
@[simp] theorem State.reg_y : s.reg .y = s.y := rfl
@[simp] theorem State.reg_sp : s.reg .sp = s.sp := rfl

/-! ### setPc -/

@[simp] theorem State.setPc_pc (t : Address) : (s.setPc t).pc = t := rfl
@[simp] theorem State.setPc_ac (t : Address) : (s.setPc t).ac = s.ac := rfl
@[simp] theorem State.setPc_x (t : Address) : (s.setPc t).x = s.x := rfl
@[simp] theorem State.setPc_y (t : Address) : (s.setPc t).y = s.y := rfl
@[simp] theorem State.setPc_sp (t : Address) : (s.setPc t).sp = s.sp := rfl
@[simp] theorem State.setPc_sr (t : Address) : (s.setPc t).sr = s.sr := rfl
@[simp] theorem State.setPc_run (t : Address) : (s.setPc t).run = s.run := rfl
@[simp] theorem State.setPc_latch (t : Address) : (s.setPc t).latch = s.latch := rfl
@[simp] theorem State.setPc_haltLatch (t : Address) : (s.setPc t).haltLatch = s.haltLatch := rfl
@[simp] theorem State.setPc_faultRecord (t : Address) : (s.setPc t).faultRecord = s.faultRecord := rfl
@[simp] theorem State.setPc_platform (t : Address) : (s.setPc t).platform = s.platform := rfl
@[simp] theorem State.setPc_mem (t : Address) : (s.setPc t).mem = s.mem := rfl
@[simp] theorem State.setPc_disturbed (t : Address) : (s.setPc t).disturbed = s.disturbed := rfl
@[simp] theorem State.setPc_bus (t : Address) : (s.setPc t).bus = s.bus := rfl
@[simp] theorem State.setPc_missed (t : Address) : (s.setPc t).missed = s.missed := rfl
@[simp] theorem State.setPc_monitor (t : Address) : (s.setPc t).monitor = s.monitor := rfl

/-! ### setSr -/

@[simp] theorem State.setSr_pc (v : Byte) : (s.setSr v).pc = s.pc := rfl
@[simp] theorem State.setSr_ac (v : Byte) : (s.setSr v).ac = s.ac := rfl
@[simp] theorem State.setSr_x (v : Byte) : (s.setSr v).x = s.x := rfl
@[simp] theorem State.setSr_y (v : Byte) : (s.setSr v).y = s.y := rfl
@[simp] theorem State.setSr_sp (v : Byte) : (s.setSr v).sp = s.sp := rfl
@[simp] theorem State.setSr_sr (v : Byte) : (s.setSr v).sr = v := rfl
@[simp] theorem State.setSr_run (v : Byte) : (s.setSr v).run = s.run := rfl
@[simp] theorem State.setSr_latch (v : Byte) : (s.setSr v).latch = s.latch := rfl
@[simp] theorem State.setSr_haltLatch (v : Byte) : (s.setSr v).haltLatch = s.haltLatch := rfl
@[simp] theorem State.setSr_faultRecord (v : Byte) : (s.setSr v).faultRecord = s.faultRecord := rfl
@[simp] theorem State.setSr_platform (v : Byte) : (s.setSr v).platform = s.platform := rfl
@[simp] theorem State.setSr_mem (v : Byte) : (s.setSr v).mem = s.mem := rfl
@[simp] theorem State.setSr_disturbed (v : Byte) : (s.setSr v).disturbed = s.disturbed := rfl
@[simp] theorem State.setSr_bus (v : Byte) : (s.setSr v).bus = s.bus := rfl
@[simp] theorem State.setSr_missed (v : Byte) : (s.setSr v).missed = s.missed := rfl
@[simp] theorem State.setSr_monitor (v : Byte) : (s.setSr v).monitor = s.monitor := rfl

/-! ### setLatch -/

@[simp] theorem State.setLatch_pc (l : Latch) : (s.setLatch l).pc = s.pc := rfl
@[simp] theorem State.setLatch_ac (l : Latch) : (s.setLatch l).ac = s.ac := rfl
@[simp] theorem State.setLatch_x (l : Latch) : (s.setLatch l).x = s.x := rfl
@[simp] theorem State.setLatch_y (l : Latch) : (s.setLatch l).y = s.y := rfl
@[simp] theorem State.setLatch_sp (l : Latch) : (s.setLatch l).sp = s.sp := rfl
@[simp] theorem State.setLatch_sr (l : Latch) : (s.setLatch l).sr = s.sr := rfl
@[simp] theorem State.setLatch_run (l : Latch) : (s.setLatch l).run = s.run := rfl
@[simp] theorem State.setLatch_latch (l : Latch) : (s.setLatch l).latch = l := rfl
@[simp] theorem State.setLatch_haltLatch (l : Latch) : (s.setLatch l).haltLatch = s.haltLatch := rfl
@[simp] theorem State.setLatch_faultRecord (l : Latch) : (s.setLatch l).faultRecord = s.faultRecord := rfl
@[simp] theorem State.setLatch_platform (l : Latch) : (s.setLatch l).platform = s.platform := rfl
@[simp] theorem State.setLatch_mem (l : Latch) : (s.setLatch l).mem = s.mem := rfl
@[simp] theorem State.setLatch_disturbed (l : Latch) : (s.setLatch l).disturbed = s.disturbed := rfl
@[simp] theorem State.setLatch_bus (l : Latch) : (s.setLatch l).bus = s.bus := rfl
@[simp] theorem State.setLatch_missed (l : Latch) : (s.setLatch l).missed = s.missed := rfl
@[simp] theorem State.setLatch_monitor (l : Latch) : (s.setLatch l).monitor = s.monitor := rfl

/-! ### setFlag -/

@[simp] theorem State.setFlag_pc (f : Flag) (b : Bool) : (s.setFlag f b).pc = s.pc := rfl
@[simp] theorem State.setFlag_ac (f : Flag) (b : Bool) : (s.setFlag f b).ac = s.ac := rfl
@[simp] theorem State.setFlag_x (f : Flag) (b : Bool) : (s.setFlag f b).x = s.x := rfl
@[simp] theorem State.setFlag_y (f : Flag) (b : Bool) : (s.setFlag f b).y = s.y := rfl
@[simp] theorem State.setFlag_sp (f : Flag) (b : Bool) : (s.setFlag f b).sp = s.sp := rfl
@[simp] theorem State.setFlag_sr (f : Flag) (b : Bool) : (s.setFlag f b).sr = putFlag s.sr f b := rfl
@[simp] theorem State.setFlag_run (f : Flag) (b : Bool) : (s.setFlag f b).run = s.run := rfl
@[simp] theorem State.setFlag_latch (f : Flag) (b : Bool) : (s.setFlag f b).latch = s.latch := rfl
@[simp] theorem State.setFlag_haltLatch (f : Flag) (b : Bool) : (s.setFlag f b).haltLatch = s.haltLatch := rfl
@[simp] theorem State.setFlag_faultRecord (f : Flag) (b : Bool) : (s.setFlag f b).faultRecord = s.faultRecord := rfl
@[simp] theorem State.setFlag_platform (f : Flag) (b : Bool) : (s.setFlag f b).platform = s.platform := rfl
@[simp] theorem State.setFlag_mem (f : Flag) (b : Bool) : (s.setFlag f b).mem = s.mem := rfl
@[simp] theorem State.setFlag_disturbed (f : Flag) (b : Bool) : (s.setFlag f b).disturbed = s.disturbed := rfl
@[simp] theorem State.setFlag_bus (f : Flag) (b : Bool) : (s.setFlag f b).bus = s.bus := rfl
@[simp] theorem State.setFlag_missed (f : Flag) (b : Bool) : (s.setFlag f b).missed = s.missed := rfl
@[simp] theorem State.setFlag_monitor (f : Flag) (b : Bool) : (s.setFlag f b).monitor = s.monitor := rfl

/-! ### enterFault -/

@[simp] theorem State.enterFault_pc (c : Cause) : (s.enterFault c).pc = s.pc := rfl
@[simp] theorem State.enterFault_ac (c : Cause) : (s.enterFault c).ac = s.ac := rfl
@[simp] theorem State.enterFault_x (c : Cause) : (s.enterFault c).x = s.x := rfl
@[simp] theorem State.enterFault_y (c : Cause) : (s.enterFault c).y = s.y := rfl
@[simp] theorem State.enterFault_sp (c : Cause) : (s.enterFault c).sp = s.sp := rfl
@[simp] theorem State.enterFault_sr (c : Cause) : (s.enterFault c).sr = s.sr := rfl
@[simp] theorem State.enterFault_run (c : Cause) : (s.enterFault c).run = .faulted := rfl
@[simp] theorem State.enterFault_latch (c : Cause) : (s.enterFault c).latch = s.latch := rfl
@[simp] theorem State.enterFault_haltLatch (c : Cause) : (s.enterFault c).haltLatch = s.haltLatch := rfl
@[simp] theorem State.enterFault_faultRecord (c : Cause) : (s.enterFault c).faultRecord = some { fault := c.fault, pcInstr := s.latch.pcInstr?, opcode := s.latch.opcode? } := rfl
@[simp] theorem State.enterFault_platform (c : Cause) : (s.enterFault c).platform = s.platform := rfl
@[simp] theorem State.enterFault_mem (c : Cause) : (s.enterFault c).mem = s.mem := rfl
@[simp] theorem State.enterFault_disturbed (c : Cause) : (s.enterFault c).disturbed = s.disturbed := rfl
@[simp] theorem State.enterFault_bus (c : Cause) : (s.enterFault c).bus = s.bus := rfl
@[simp] theorem State.enterFault_missed (c : Cause) : (s.enterFault c).missed = c.missed s.missed := rfl
@[simp] theorem State.enterFault_monitor (c : Cause) : (s.enterFault c).monitor = s.monitor := rfl

/-! ### the cause of a fault -/

@[simp] theorem Cause.fault_illegalOpcode : Cause.illegalOpcode.fault = .illegalOpcode := rfl
@[simp] theorem Cause.fault_indirectXPageCross : Cause.indirectXPageCross.fault = .indirectXPageCross := rfl
@[simp] theorem Cause.fault_read (a : Address) : (Cause.busFault (.read a)).fault = .busFault .read a := rfl
@[simp] theorem Cause.fault_write (a : Address) (v : Byte) : (Cause.busFault (.write a v)).fault = .busFault .write a := rfl
@[simp] theorem Cause.missed_illegalOpcode (l : List Miss) : Cause.illegalOpcode.missed l = l := rfl
@[simp] theorem Cause.missed_indirectXPageCross (l : List Miss) : Cause.indirectXPageCross.missed l = l := rfl
@[simp] theorem Cause.missed_busFault (m : Miss) (l : List Miss) : (Cause.busFault m).missed l = m :: l := rfl

/-! ### readDone -/

@[simp] theorem State.readDone_pc (a : Address) (p : Place) : (s.readDone a p).pc = s.pc := rfl
@[simp] theorem State.readDone_ac (a : Address) (p : Place) : (s.readDone a p).ac = s.ac := rfl
@[simp] theorem State.readDone_x (a : Address) (p : Place) : (s.readDone a p).x = s.x := rfl
@[simp] theorem State.readDone_y (a : Address) (p : Place) : (s.readDone a p).y = s.y := rfl
@[simp] theorem State.readDone_sp (a : Address) (p : Place) : (s.readDone a p).sp = s.sp := rfl
@[simp] theorem State.readDone_sr (a : Address) (p : Place) : (s.readDone a p).sr = s.sr := rfl
@[simp] theorem State.readDone_run (a : Address) (p : Place) : (s.readDone a p).run = s.run := rfl
@[simp] theorem State.readDone_latch (a : Address) (p : Place) : (s.readDone a p).latch = s.latch := rfl
@[simp] theorem State.readDone_haltLatch (a : Address) (p : Place) : (s.readDone a p).haltLatch = s.haltLatch := rfl
@[simp] theorem State.readDone_faultRecord (a : Address) (p : Place) : (s.readDone a p).faultRecord = s.faultRecord := rfl
@[simp] theorem State.readDone_platform (a : Address) (p : Place) : (s.readDone a p).platform = s.platform := rfl
@[simp] theorem State.readDone_mem (a : Address) (p : Place) : (s.readDone a p).mem = s.mem := rfl
@[simp] theorem State.readDone_disturbed (a : Address) (p : Place) : (s.readDone a p).disturbed = s.disturbed := rfl
@[simp] theorem State.readDone_bus (a : Address) (p : Place) : (s.readDone a p).bus = .read a p.backend p.localAddr (s.answer p) :: s.bus := rfl
@[simp] theorem State.readDone_missed (a : Address) (p : Place) : (s.readDone a p).missed = s.missed := rfl
@[simp] theorem State.readDone_monitor (a : Address) (p : Place) : (s.readDone a p).monitor = s.monitor := rfl

/-! ### writeDone -/

@[simp] theorem State.writeDone_pc (a : Address) (p : Place) (v : Byte) :
    (s.writeDone a p v).pc = s.pc := by
  cases h : p.kind <;> simp [State.writeDone, h]
@[simp] theorem State.writeDone_ac (a : Address) (p : Place) (v : Byte) :
    (s.writeDone a p v).ac = s.ac := by
  cases h : p.kind <;> simp [State.writeDone, h]
@[simp] theorem State.writeDone_x (a : Address) (p : Place) (v : Byte) :
    (s.writeDone a p v).x = s.x := by
  cases h : p.kind <;> simp [State.writeDone, h]
@[simp] theorem State.writeDone_y (a : Address) (p : Place) (v : Byte) :
    (s.writeDone a p v).y = s.y := by
  cases h : p.kind <;> simp [State.writeDone, h]
@[simp] theorem State.writeDone_sp (a : Address) (p : Place) (v : Byte) :
    (s.writeDone a p v).sp = s.sp := by
  cases h : p.kind <;> simp [State.writeDone, h]
@[simp] theorem State.writeDone_sr (a : Address) (p : Place) (v : Byte) :
    (s.writeDone a p v).sr = s.sr := by
  cases h : p.kind <;> simp [State.writeDone, h]
@[simp] theorem State.writeDone_run (a : Address) (p : Place) (v : Byte) :
    (s.writeDone a p v).run = s.run := by
  cases h : p.kind <;> simp [State.writeDone, h]
@[simp] theorem State.writeDone_latch (a : Address) (p : Place) (v : Byte) :
    (s.writeDone a p v).latch = s.latch := by
  cases h : p.kind <;> simp [State.writeDone, h]
@[simp] theorem State.writeDone_haltLatch (a : Address) (p : Place) (v : Byte) :
    (s.writeDone a p v).haltLatch = s.haltLatch := by
  cases h : p.kind <;> simp [State.writeDone, h]
@[simp] theorem State.writeDone_faultRecord (a : Address) (p : Place) (v : Byte) :
    (s.writeDone a p v).faultRecord = s.faultRecord := by
  cases h : p.kind <;> simp [State.writeDone, h]
@[simp] theorem State.writeDone_platform (a : Address) (p : Place) (v : Byte) :
    (s.writeDone a p v).platform = s.platform := by
  cases h : p.kind <;> simp [State.writeDone, h]
@[simp] theorem State.writeDone_mem (a : Address) (p : Place) (v : Byte) :
    (s.writeDone a p v).mem = (if p.kind = .ram then Memory.write s.mem p.key v else s.mem) := by
  cases h : p.kind <;> simp [State.writeDone, h]
@[simp] theorem State.writeDone_disturbed (a : Address) (p : Place) (v : Byte) :
    (s.writeDone a p v).disturbed = (if p.kind = .rom ∧ p.backend ∉ s.disturbed then p.backend :: s.disturbed else s.disturbed) := by
  cases h : p.kind <;> by_cases hd : p.backend ∈ s.disturbed <;> simp [State.writeDone, h, hd]
@[simp] theorem State.writeDone_bus (a : Address) (p : Place) (v : Byte) :
    (s.writeDone a p v).bus = .write a p.backend p.localAddr v :: s.bus := by
  cases h : p.kind <;> simp [State.writeDone, h]
@[simp] theorem State.writeDone_missed (a : Address) (p : Place) (v : Byte) :
    (s.writeDone a p v).missed = s.missed := by
  cases h : p.kind <;> simp [State.writeDone, h]
@[simp] theorem State.writeDone_monitor (a : Address) (p : Place) (v : Byte) :
    (s.writeDone a p v).monitor = s.monitor := by
  cases h : p.kind <;> simp [State.writeDone, h]

/-! ### restart -/

@[simp] theorem State.restart_pc (t : Address) : (s.restart t).pc = t := rfl
@[simp] theorem State.restart_ac (t : Address) : (s.restart t).ac = s.ac := rfl
@[simp] theorem State.restart_x (t : Address) : (s.restart t).x = s.x := rfl
@[simp] theorem State.restart_y (t : Address) : (s.restart t).y = s.y := rfl
@[simp] theorem State.restart_sp (t : Address) : (s.restart t).sp = s.sp := rfl
@[simp] theorem State.restart_sr (t : Address) : (s.restart t).sr = resetSr := rfl
@[simp] theorem State.restart_run (t : Address) : (s.restart t).run = .running := rfl
@[simp] theorem State.restart_latch (t : Address) : (s.restart t).latch = s.latch := rfl
@[simp] theorem State.restart_haltLatch (t : Address) : (s.restart t).haltLatch = s.haltLatch := rfl
@[simp] theorem State.restart_faultRecord (t : Address) : (s.restart t).faultRecord = s.faultRecord := rfl
@[simp] theorem State.restart_platform (t : Address) : (s.restart t).platform = s.platform := rfl
@[simp] theorem State.restart_mem (t : Address) : (s.restart t).mem = s.mem := rfl
@[simp] theorem State.restart_disturbed (t : Address) : (s.restart t).disturbed = s.disturbed := rfl
@[simp] theorem State.restart_bus (t : Address) : (s.restart t).bus = s.bus := rfl
@[simp] theorem State.restart_missed (t : Address) : (s.restart t).missed = s.missed := rfl
@[simp] theorem State.restart_monitor (t : Address) : (s.restart t).monitor = s.monitor := rfl

/-! ### setZN -/

@[simp] theorem setZN_pc (v : Byte) : (setZN v s).pc = s.pc := rfl
@[simp] theorem setZN_ac (v : Byte) : (setZN v s).ac = s.ac := rfl
@[simp] theorem setZN_x (v : Byte) : (setZN v s).x = s.x := rfl
@[simp] theorem setZN_y (v : Byte) : (setZN v s).y = s.y := rfl
@[simp] theorem setZN_sp (v : Byte) : (setZN v s).sp = s.sp := rfl
@[simp] theorem setZN_sr (v : Byte) : (setZN v s).sr = putFlag (putFlag s.sr .Z (decide (v = 0))) .N v.msb := rfl
@[simp] theorem setZN_run (v : Byte) : (setZN v s).run = s.run := rfl
@[simp] theorem setZN_latch (v : Byte) : (setZN v s).latch = s.latch := rfl
@[simp] theorem setZN_haltLatch (v : Byte) : (setZN v s).haltLatch = s.haltLatch := rfl
@[simp] theorem setZN_faultRecord (v : Byte) : (setZN v s).faultRecord = s.faultRecord := rfl
@[simp] theorem setZN_platform (v : Byte) : (setZN v s).platform = s.platform := rfl
@[simp] theorem setZN_mem (v : Byte) : (setZN v s).mem = s.mem := rfl
@[simp] theorem setZN_disturbed (v : Byte) : (setZN v s).disturbed = s.disturbed := rfl
@[simp] theorem setZN_bus (v : Byte) : (setZN v s).bus = s.bus := rfl
@[simp] theorem setZN_missed (v : Byte) : (setZN v s).missed = s.missed := rfl
@[simp] theorem setZN_monitor (v : Byte) : (setZN v s).monitor = s.monitor := rfl

/-! ### advance -/

@[simp] theorem advance_pc (i : Instr) : (advance i s).pc = s.pc + BitVec.ofNat 16 i.length := rfl
@[simp] theorem advance_ac (i : Instr) : (advance i s).ac = s.ac := rfl
@[simp] theorem advance_x (i : Instr) : (advance i s).x = s.x := rfl
@[simp] theorem advance_y (i : Instr) : (advance i s).y = s.y := rfl
@[simp] theorem advance_sp (i : Instr) : (advance i s).sp = s.sp := rfl
@[simp] theorem advance_sr (i : Instr) : (advance i s).sr = s.sr := rfl
@[simp] theorem advance_run (i : Instr) : (advance i s).run = s.run := rfl
@[simp] theorem advance_latch (i : Instr) : (advance i s).latch = s.latch := rfl
@[simp] theorem advance_haltLatch (i : Instr) : (advance i s).haltLatch = s.haltLatch := rfl
@[simp] theorem advance_faultRecord (i : Instr) : (advance i s).faultRecord = s.faultRecord := rfl
@[simp] theorem advance_platform (i : Instr) : (advance i s).platform = s.platform := rfl
@[simp] theorem advance_mem (i : Instr) : (advance i s).mem = s.mem := rfl
@[simp] theorem advance_disturbed (i : Instr) : (advance i s).disturbed = s.disturbed := rfl
@[simp] theorem advance_bus (i : Instr) : (advance i s).bus = s.bus := rfl
@[simp] theorem advance_missed (i : Instr) : (advance i s).missed = s.missed := rfl
@[simp] theorem advance_monitor (i : Instr) : (advance i s).monitor = s.monitor := rfl

/-! ### observe -/

@[simp] theorem observe_pc (i : Instr) : (observe i s).pc = s.pc := by
  unfold observe; split <;> rfl
@[simp] theorem observe_ac (i : Instr) : (observe i s).ac = s.ac := by
  unfold observe; split <;> rfl
@[simp] theorem observe_x (i : Instr) : (observe i s).x = s.x := by
  unfold observe; split <;> rfl
@[simp] theorem observe_y (i : Instr) : (observe i s).y = s.y := by
  unfold observe; split <;> rfl
@[simp] theorem observe_sp (i : Instr) : (observe i s).sp = s.sp := by
  unfold observe; split <;> rfl
@[simp] theorem observe_sr (i : Instr) : (observe i s).sr = s.sr := by
  unfold observe; split <;> rfl
@[simp] theorem observe_run (i : Instr) : (observe i s).run = s.run := by
  unfold observe; split <;> rfl
@[simp] theorem observe_latch (i : Instr) : (observe i s).latch = s.latch := by
  unfold observe; split <;> rfl
@[simp] theorem observe_haltLatch (i : Instr) : (observe i s).haltLatch = s.haltLatch := by
  unfold observe; split <;> rfl
@[simp] theorem observe_faultRecord (i : Instr) : (observe i s).faultRecord = s.faultRecord := by
  unfold observe; split <;> rfl
@[simp] theorem observe_platform (i : Instr) : (observe i s).platform = s.platform := by
  unfold observe; split <;> rfl
@[simp] theorem observe_mem (i : Instr) : (observe i s).mem = s.mem := by
  unfold observe; split <;> rfl
@[simp] theorem observe_disturbed (i : Instr) : (observe i s).disturbed = s.disturbed := by
  unfold observe; split <;> rfl
@[simp] theorem observe_bus (i : Instr) : (observe i s).bus = s.bus := by
  unfold observe; split <;> rfl
@[simp] theorem observe_missed (i : Instr) : (observe i s).missed = s.missed := by
  unfold observe; split <;> rfl

end Sys2Proof.Machine
end

