-- ==== Sys2Proof/Laws/Bus.lean ====
section
/-! SUPPORT. What the bus operations can do, said once each: the access primitives (20_memory.md R33 to R37), the stack
primitives (10_state.md R28, R29), and reading one byte of memory after a write. -/

namespace Sys2Proof.Machine

/-! ## Running an operation -/

@[simp] theorem Res.ok_andThen {α β : Type} (v : α) (s : State) (next : α → State → Res β) :
    (Res.ok v s).andThen next = next v s := rfl

@[simp] theorem Res.raised_andThen {α β : Type} (s : State) (next : α → State → Res β) :
    (Res.raised s : Res α).andThen next = .raised s := rfl

@[simp] theorem Res.ok_outcome (s : State) : (Res.ok () s).outcome = .next s := rfl

@[simp] theorem Res.raised_outcome (s : State) : (Res.raised s : Res Unit).outcome = .next s := rfl

@[simp] theorem raise_eq {α : Type} (c : Cause) (s : State) : (raise c s : Res α) = .raised (s.enterFault c) := rfl

theorem Res.andThen_eq_ok {α β : Type} {r : Res α} {next : α → State → Res β} {v : β} {u : State} :
    r.andThen next = .ok v u ↔ ∃ w t, r = .ok w t ∧ next w t = .ok v u := by
  cases r <;> simp

theorem Res.andThen_eq_raised {α β : Type} {r : Res α} {next : α → State → Res β} {u : State} :
    r.andThen next = .raised u ↔ r = .raised u ∨ ∃ w t, r = .ok w t ∧ next w t = .raised u := by
  cases r <;> simp

/-- An operation that ends leaves a state either way. -/
theorem Res.outcome_next (r : Res Unit) : ∃ t, r.outcome = .next t := by
  cases r <;> exact ⟨_, rfl⟩

/-! ## The access primitives -/

theorem memRead_of_route {s : State} {a : Address} {p : Place} (h : route s.platform a = some p) :
    memRead a s = .ok (s.answer p) (s.readDone a p) := by
  simp [memRead, h]

theorem memRead_of_unmapped {s : State} {a : Address} (h : route s.platform a = none) :
    memRead a s = .raised (s.enterFault (.busFault (.read a))) := by
  simp [memRead, h]

theorem memWrite_of_route {s : State} {a : Address} {p : Place} (v : Byte) (h : route s.platform a = some p) :
    memWrite a v s = .ok () (s.writeDone a p v) := by
  simp [memWrite, h]

theorem memWrite_of_unmapped {s : State} {a : Address} (v : Byte) (h : route s.platform a = none) :
    memWrite a v s = .raised (s.enterFault (.busFault (.write a v))) := by
  simp [memWrite, h]

/-- Everything `memRead` can do. -/
theorem memRead_cases (a : Address) (s : State) :
    (∃ p, route s.platform a = some p ∧ memRead a s = .ok (s.answer p) (s.readDone a p)) ∨
    (route s.platform a = none ∧ memRead a s = .raised (s.enterFault (.busFault (.read a)))) := by
  cases h : route s.platform a with
  | none   => exact .inr ⟨rfl, memRead_of_unmapped h⟩
  | some p => exact .inl ⟨p, rfl, memRead_of_route h⟩

/-- Everything `memWrite` can do. -/
theorem memWrite_cases (a : Address) (v : Byte) (s : State) :
    (∃ p, route s.platform a = some p ∧ memWrite a v s = .ok () (s.writeDone a p v)) ∨
    (route s.platform a = none ∧ memWrite a v s = .raised (s.enterFault (.busFault (.write a v)))) := by
  cases h : route s.platform a with
  | none   => exact .inr ⟨rfl, memWrite_of_unmapped v h⟩
  | some p => exact .inl ⟨p, rfl, memWrite_of_route v h⟩

/-- `memRead16` where both bytes are covered. -/
theorem memRead16_of_route {s : State} {a : Address} {p q : Place} (hp : route s.platform a = some p)
    (hq : route s.platform (a + 1) = some q) :
    memRead16 a s = .ok (join ((s.readDone a p).answer q) (s.answer p)) ((s.readDone a p).readDone (a + 1) q) := by
  have hq' : route (s.readDone a p).platform (a + 1) = some q := hq
  rw [memRead16, memRead_of_route hp, Res.ok_andThen, memRead_of_route hq', Res.ok_andThen]

/-- A local address is below 65536. -/
theorem routeIn_localAddr {bs : List Backend} {l : List Binding} {a : Address} {p : Place} (h : routeIn bs l a = some p) :
    p.localAddr < 65536 := by
  induction l with
  | nil => simp [routeIn] at h
  | cons b rest ih =>
    simp only [routeIn] at h
    split at h
    · exact ih h
    · split at h
      · have := a.isLt
        simp only [Option.some.injEq] at h
        subst h
        simp only
        omega
      · exact ih h

theorem route_localAddr {pl : Platform} {a : Address} {p : Place} (h : route pl a = some p) : p.localAddr < 65536 :=
  routeIn_localAddr h

/-! ## One byte of memory -/

theorem State.peek_of_route {s : State} {a : Address} {p : Place} (h : route s.platform a = some p) :
    s.peek a = if s.holds p then some (Memory.read s.mem p.key) else none := by
  simp [State.peek, h]

theorem State.holds_ram {s : State} {p : Place} (h : p.kind = .ram) : s.holds p = true := by
  simp [State.holds, h]

/-- A read answers the byte `peek` shows, where it shows one. -/
theorem State.answer_of_peek {s : State} {a : Address} {p : Place} {v : Byte} (h : route s.platform a = some p)
    (hv : s.peek a = some v) : s.answer p = v := by
  rw [State.peek_of_route h] at hv
  unfold State.answer
  split at hv <;> simp_all

/-- `peek` looks at nothing but the platform, memory and the disturbed ROMs. -/
theorem State.peek_congr {s t : State} (hp : t.platform = s.platform) (hm : t.mem = s.mem) (hd : t.disturbed = s.disturbed)
    (a : Address) : t.peek a = s.peek a := by
  simp [State.peek, State.holds, hp, hm, hd]

/-- RAM holds the byte last written (20_memory.md R45). -/
theorem State.peek_writeDone_self {s : State} {a b : Address} {p : Place} (v : Byte) (h : route s.platform a = some p)
    (hk : p.kind = .ram) (hm : Memory.wf s.mem = true) : (s.writeDone b p v).peek a = some v := by
  rw [State.peek_of_route (p := p) (by simpa using h), State.holds_ram hk]
  simp [hk, Memory.read_write_self _ _ hm]

/-- A write leaves every other byte as it was. -/
theorem State.peek_writeDone_ne {s : State} {a b : Address} {p q : Place} (v : Byte) (hq : route s.platform b = some q)
    (hk : q.key ≠ p.key) (hr : p.kind = .rom → q.backend ≠ p.backend) : (s.writeDone a p v).peek b = s.peek b := by
  rw [State.peek_of_route (p := q) (by simpa using hq), State.peek_of_route hq]
  have hh : (s.writeDone a p v).holds q = s.holds q := by
    cases hpk : p.kind <;> cases hqk : q.kind <;> simp [State.holds, hqk, hpk]
    have := hr hpk
    split <;> simp_all
  have hmem : Memory.read (s.writeDone a p v).mem q.key = Memory.read s.mem q.key := by
    simp only [State.writeDone_mem]
    split
    · exact Memory.read_write_ne v hk
    · rfl
  rw [hh, hmem]

/-- A delivered write keeps the canonical form of memory. -/
theorem State.writeDone_wf {s : State} (a : Address) (p : Place) (v : Byte) (h : Memory.wf s.mem = true) :
    Memory.wf (s.writeDone a p v).mem = true := by
  rw [State.writeDone_mem]
  split
  · exact Memory.write_wf _ _ h
  · exact h

/-- Loading a byte keeps the canonical form of memory. -/
theorem State.poke_wf {s : State} (a : Address) (v : Byte) (h : Memory.wf s.mem = true) : Memory.wf (s.poke a v).mem = true := by
  unfold State.poke
  split
  · exact h
  · exact Memory.write_wf _ _ h

/-! ## The stack primitives -/

theorem push8_of_route {s : State} {p : Place} (v : Byte) (h : route s.platform (stackAddr s.sp) = some p) :
    push8 v s = .ok () ((s.writeDone (stackAddr s.sp) p v).setReg .sp (s.sp - 1)) := by
  simp [push8, memWrite_of_route v h]

theorem push8_of_unmapped {s : State} (v : Byte) (h : route s.platform (stackAddr s.sp) = none) :
    push8 v s = .raised (s.enterFault (.busFault (.write (stackAddr s.sp) v))) := by
  simp [push8, memWrite_of_unmapped v h]

theorem pull8_of_route {s : State} {p : Place} (h : route s.platform (stackAddr (s.sp + 1)) = some p) :
    pull8 s = .ok ((s.setReg .sp (s.sp + 1)).answer p) ((s.setReg .sp (s.sp + 1)).readDone (stackAddr (s.sp + 1)) p) := by
  have h' : route (s.setReg .sp (s.sp + 1)).platform (stackAddr (s.sp + 1)) = some p := h
  exact memRead_of_route h'

theorem pull8_of_unmapped {s : State} (h : route s.platform (stackAddr (s.sp + 1)) = none) :
    pull8 s = .raised ((s.setReg .sp (s.sp + 1)).enterFault (.busFault (.read (stackAddr (s.sp + 1))))) := by
  have h' : route (s.setReg .sp (s.sp + 1)).platform (stackAddr (s.sp + 1)) = none := h
  exact memRead_of_unmapped h'

/-- Everything `push8` can do. -/
theorem push8_cases (v : Byte) (s : State) :
    (∃ p, route s.platform (stackAddr s.sp) = some p ∧
      push8 v s = .ok () ((s.writeDone (stackAddr s.sp) p v).setReg .sp (s.sp - 1))) ∨
    (route s.platform (stackAddr s.sp) = none ∧ push8 v s = .raised (s.enterFault (.busFault (.write (stackAddr s.sp) v)))) := by
  cases h : route s.platform (stackAddr s.sp) with
  | none   => exact .inr ⟨rfl, push8_of_unmapped v h⟩
  | some p => exact .inl ⟨p, rfl, push8_of_route v h⟩

/-- Everything `pull8` can do. -/
theorem pull8_cases (s : State) :
    (∃ p, route s.platform (stackAddr (s.sp + 1)) = some p ∧
      pull8 s = .ok ((s.setReg .sp (s.sp + 1)).answer p) ((s.setReg .sp (s.sp + 1)).readDone (stackAddr (s.sp + 1)) p)) ∨
    (route s.platform (stackAddr (s.sp + 1)) = none ∧
      pull8 s = .raised ((s.setReg .sp (s.sp + 1)).enterFault (.busFault (.read (stackAddr (s.sp + 1)))))) := by
  cases h : route s.platform (stackAddr (s.sp + 1)) with
  | none   => exact .inr ⟨rfl, pull8_of_unmapped h⟩
  | some p => exact .inl ⟨p, rfl, pull8_of_route h⟩

/-- Moving SP does not change what a place answers. -/
@[simp] theorem State.answer_setReg (s : State) (r : Reg) (v : Byte) (p : Place) : (s.setReg r v).answer p = s.answer p := by
  simp [State.answer, State.holds]

end Sys2Proof.Machine
end

