-- ==== Sys2Proof/Laws/Decode.lean ====
section
/-! SUPPORT. The two bytes of an address (00_scope.md R5): `hi`, `lo` and `join` undo each other. And what the opcode look-up
answers: a descriptor it finds stands in the row it looks in. -/

namespace Sys2Proof

@[simp] theorem toNat_join (h l : Byte) : (join h l).toNat = h.toNat * 256 + l.toNat := by
  have := BitVec.toNat_append h l
  rw [join, this, Nat.shiftLeft_eq, ← Nat.shiftLeft_eq, ← Nat.shiftLeft_add_eq_or_of_lt l.isLt, Nat.shiftLeft_eq]

theorem toNat_hi (w : Address) : (hi w).toNat = w.toNat / 256 := by
  have := w.isLt
  simp only [hi, BitVec.extractLsb'_toNat, Nat.shiftRight_eq_div_pow]
  omega

theorem toNat_lo (w : Address) : (lo w).toNat = w.toNat % 256 := by
  simp [lo]

@[simp] theorem hi_join (h l : Byte) : hi (join h l) = h := by
  apply BitVec.eq_of_toNat_eq
  rw [toNat_hi, toNat_join]
  omega

@[simp] theorem lo_join (h l : Byte) : lo (join h l) = l := by
  apply BitVec.eq_of_toNat_eq
  rw [toNat_lo, toNat_join]
  omega

@[simp] theorem join_hi_lo (w : Address) : join (hi w) (lo w) = w := by
  apply BitVec.eq_of_toNat_eq
  rw [toNat_join, toNat_hi, toNat_lo]
  omega

/-- Every word is the join of two bytes. -/
theorem exists_join (w : Address) : ∃ h l, w = join h l := ⟨hi w, lo w, (join_hi_lo w).symm⟩

/-- The look-up answers a descriptor only from a row of its list that has the opcode byte. -/
theorem lookupOpcode_mem {l : List (Byte × Descriptor)} {op : Byte} {d : Descriptor} (h : lookupOpcode l op = some d) :
    (op, d) ∈ l := by
  induction l with
  | nil => simp [lookupOpcode] at h
  | cons x rest ih =>
    obtain ⟨k, e⟩ := x
    simp only [lookupOpcode] at h
    split at h
    · simp_all
    · exact List.mem_cons_of_mem _ (ih h)

end Sys2Proof
end

