-- ==== Sys2Proof/Laws/Exec.lean ====
section
/-! SUPPORT. What `exec` answers, one lemma per mnemonic: the shared operation its meanings are, for whichever of its forms the
instruction is. Later proofs cite these and do not unfold `exec`. -/

namespace Sys2Proof.Machine

variable {i : Instr}

/-- ADC (R80). -/
theorem exec_adc (hm : i.mnemonic = .ADC) {src : Source} (hf : i.form.source? = some src) (s : State) :
    exec i s = readThen src adc s := by
  cases i <;> first | (cases hm; done) | (cases hf; done) | (cases hf; rfl)

/-- SBC (R81). -/
theorem exec_sbc (hm : i.mnemonic = .SBC) {src : Source} (hf : i.form.source? = some src) (s : State) :
    exec i s = readThen src sbc s := by
  cases i <;> first | (cases hm; done) | (cases hf; done) | (cases hf; rfl)

/-- AND (R85). -/
theorem exec_and (hm : i.mnemonic = .AND) {src : Source} (hf : i.form.source? = some src) (s : State) :
    exec i s = readThen src (logic (· &&& ·)) s := by
  cases i <;> first | (cases hm; done) | (cases hf; done) | (cases hf; rfl)

/-- ORA (R86). -/
theorem exec_ora (hm : i.mnemonic = .ORA) {src : Source} (hf : i.form.source? = some src) (s : State) :
    exec i s = readThen src (logic (· ||| ·)) s := by
  cases i <;> first | (cases hm; done) | (cases hf; done) | (cases hf; rfl)

/-- EOR (R87). -/
theorem exec_eor (hm : i.mnemonic = .EOR) {src : Source} (hf : i.form.source? = some src) (s : State) :
    exec i s = readThen src (logic (· ^^^ ·)) s := by
  cases i <;> first | (cases hm; done) | (cases hf; done) | (cases hf; rfl)

/-- ASL, accumulator (R91). -/
theorem exec_asl_acc (hm : i.mnemonic = .ASL) (hf : i.form = .accumulator) (s : State) :
    exec i s = shiftAcc aslResult leftOut s := by
  cases i <;> first | (cases hm; done) | (cases hf; done) | (cases hf; rfl)

/-- ASL, a memory mode (R91). -/
theorem exec_asl_mem (hm : i.mnemonic = .ASL) {f : MemForm} (hf : i.form.memory? = some f) (s : State) :
    exec i s = shiftMem f aslResult leftOut s := by
  cases i <;> first | (cases hm; done) | (cases hf; done) | (cases hf; rfl)

/-- LSR, accumulator (R92). -/
theorem exec_lsr_acc (hm : i.mnemonic = .LSR) (hf : i.form = .accumulator) (s : State) :
    exec i s = shiftAcc lsrResult rightOut s := by
  cases i <;> first | (cases hm; done) | (cases hf; done) | (cases hf; rfl)

/-- LSR, a memory mode (R92). -/
theorem exec_lsr_mem (hm : i.mnemonic = .LSR) {f : MemForm} (hf : i.form.memory? = some f) (s : State) :
    exec i s = shiftMem f lsrResult rightOut s := by
  cases i <;> first | (cases hm; done) | (cases hf; done) | (cases hf; rfl)

/-- ROL, accumulator (R93). -/
theorem exec_rol_acc (hm : i.mnemonic = .ROL) (hf : i.form = .accumulator) (s : State) :
    exec i s = shiftAcc rolResult leftOut s := by
  cases i <;> first | (cases hm; done) | (cases hf; done) | (cases hf; rfl)

/-- ROL, a memory mode (R93). -/
theorem exec_rol_mem (hm : i.mnemonic = .ROL) {f : MemForm} (hf : i.form.memory? = some f) (s : State) :
    exec i s = shiftMem f rolResult leftOut s := by
  cases i <;> first | (cases hm; done) | (cases hf; done) | (cases hf; rfl)

/-- ROR, accumulator (R94). -/
theorem exec_ror_acc (hm : i.mnemonic = .ROR) (hf : i.form = .accumulator) (s : State) :
    exec i s = shiftAcc rorResult rightOut s := by
  cases i <;> first | (cases hm; done) | (cases hf; done) | (cases hf; rfl)

/-- ROR, a memory mode (R94). -/
theorem exec_ror_mem (hm : i.mnemonic = .ROR) {f : MemForm} (hf : i.form.memory? = some f) (s : State) :
    exec i s = shiftMem f rorResult rightOut s := by
  cases i <;> first | (cases hm; done) | (cases hf; done) | (cases hf; rfl)

/-- CMP (R96). -/
theorem exec_cmp (hm : i.mnemonic = .CMP) {src : Source} (hf : i.form.source? = some src) (s : State) :
    exec i s = readThen src (compareReg .ac) s := by
  cases i <;> first | (cases hm; done) | (cases hf; done) | (cases hf; rfl)

/-- CPX (R97). -/
theorem exec_cpx (hm : i.mnemonic = .CPX) {src : Source} (hf : i.form.source? = some src) (s : State) :
    exec i s = readThen src (compareReg .x) s := by
  cases i <;> first | (cases hm; done) | (cases hf; done) | (cases hf; rfl)

/-- CPY (R98). -/
theorem exec_cpy (hm : i.mnemonic = .CPY) {src : Source} (hf : i.form.source? = some src) (s : State) :
    exec i s = readThen src (compareReg .y) s := by
  cases i <;> first | (cases hm; done) | (cases hf; done) | (cases hf; rfl)

/-- INC (R100). -/
theorem exec_inc (hm : i.mnemonic = .INC) {f : MemForm} (hf : i.form.memory? = some f) (s : State) :
    exec i s = update f (fun v _ => v + 1) countFlags s := by
  cases i <;> first | (cases hm; done) | (cases hf; done) | (cases hf; rfl)

/-- DEC (R101). -/
theorem exec_dec (hm : i.mnemonic = .DEC) {f : MemForm} (hf : i.form.memory? = some f) (s : State) :
    exec i s = update f (fun v _ => v - 1) countFlags s := by
  cases i <;> first | (cases hm; done) | (cases hf; done) | (cases hf; rfl)

/-- INX (R102). -/
theorem exec_inx (s : State) : exec .inx s = .next (putReg .x (s.x + 1) s) := rfl

/-- DEX (R103). -/
theorem exec_dex (s : State) : exec .dex s = .next (putReg .x (s.x - 1) s) := rfl

/-- INY (R104). -/
theorem exec_iny (s : State) : exec .iny s = .next (putReg .y (s.y + 1) s) := rfl

/-- DEY (R105). -/
theorem exec_dey (s : State) : exec .dey s = .next (putReg .y (s.y - 1) s) := rfl

/-- BCC (R111). -/
theorem exec_bcc (n : Byte) (s : State) : exec (.bcc n) s = branch (!flag s.sr .C) n s := rfl

/-- BCS (R112). -/
theorem exec_bcs (n : Byte) (s : State) : exec (.bcs n) s = branch (flag s.sr .C) n s := rfl

/-- BEQ (R113). -/
theorem exec_beq (n : Byte) (s : State) : exec (.beq n) s = branch (flag s.sr .Z) n s := rfl

/-- BNE (R114). -/
theorem exec_bne (n : Byte) (s : State) : exec (.bne n) s = branch (!flag s.sr .Z) n s := rfl

/-- BMI (R115). -/
theorem exec_bmi (n : Byte) (s : State) : exec (.bmi n) s = branch (flag s.sr .N) n s := rfl

/-- BPL (R116). -/
theorem exec_bpl (n : Byte) (s : State) : exec (.bpl n) s = branch (!flag s.sr .N) n s := rfl

/-- JMP (R120). -/
theorem exec_jmp (w : Address) (s : State) : exec (.jmp w) s = .next (s.setPc w) := rfl

/-- JSR (R121). -/
theorem exec_jsr (w : Address) (s : State) :
    exec (.jsr w) s = ((push8 (hi (s.pc - 1)) s).andThen fun _ t =>
      (push8 (lo (s.pc - 1)) t).andThen fun _ u => .ok () (u.setPc w)).outcome := rfl

/-- RTS (R122). -/
theorem exec_rts (s : State) :
    exec .rts s = ((pull8 s).andThen fun l t => (pull8 t).andThen fun h u => .ok () (u.setPc (join h l + 1))).outcome := rfl

/-- PHA (R125). -/
theorem exec_pha (s : State) : exec .pha s = (push8 s.ac s).outcome := rfl

/-- PLA (R126). -/
theorem exec_pla (s : State) : exec .pla s = ((pull8 s).andThen fun v t => .ok () (putReg .ac v t)).outcome := rfl

/-- TAX (R127). -/
theorem exec_tax (s : State) : exec .tax s = .next (putReg .x s.ac s) := rfl

/-- TAY (R128). -/
theorem exec_tay (s : State) : exec .tay s = .next (putReg .y s.ac s) := rfl

/-- TXA (R129). -/
theorem exec_txa (s : State) : exec .txa s = .next (putReg .ac s.x s) := rfl

/-- TYA (R130). -/
theorem exec_tya (s : State) : exec .tya s = .next (putReg .ac s.y s) := rfl

/-- TXS (R131). -/
theorem exec_txs (s : State) : exec .txs s = .next (s.setReg .sp s.x) := rfl

/-- CLC (R135). -/
theorem exec_clc (s : State) : exec .clc s = .next (s.setFlag .C false) := rfl

/-- SEC (R136). -/
theorem exec_sec (s : State) : exec .sec s = .next (s.setFlag .C true) := rfl

/-- CLI (R137). -/
theorem exec_cli (s : State) : exec .cli s = .next (s.setFlag .I false) := rfl

/-- SEI (R138). -/
theorem exec_sei (s : State) : exec .sei s = .next (s.setFlag .I true) := rfl

/-- CLD (R139). -/
theorem exec_cld (s : State) : exec .cld s = .next (s.setFlag .D false) := rfl

/-- NOP (R140). -/
theorem exec_nop (s : State) : exec .nop s = .next s := rfl

/-- HLT (R141). -/
theorem exec_hlt (s : State) : exec .hlt s = .next { s with haltLatch := s.x, run := .halted } := rfl

/-- LDA (R145). -/
theorem exec_lda (hm : i.mnemonic = .LDA) {src : Source} (hf : i.form.source? = some src) (s : State) :
    exec i s = readThen src (putReg .ac) s := by
  cases i <;> first | (cases hm; done) | (cases hf; done) | (cases hf; rfl)

/-- LDX (R146). -/
theorem exec_ldx (hm : i.mnemonic = .LDX) {src : Source} (hf : i.form.source? = some src) (s : State) :
    exec i s = readThen src (putReg .x) s := by
  cases i <;> first | (cases hm; done) | (cases hf; done) | (cases hf; rfl)

/-- LDY (R147). -/
theorem exec_ldy (hm : i.mnemonic = .LDY) {src : Source} (hf : i.form.source? = some src) (s : State) :
    exec i s = readThen src (putReg .y) s := by
  cases i <;> first | (cases hm; done) | (cases hf; done) | (cases hf; rfl)

/-- STA (R148). -/
theorem exec_sta (hm : i.mnemonic = .STA) {f : MemForm} (hf : i.form.memory? = some f) (s : State) :
    exec i s = storeReg f .ac s := by
  cases i <;> first | (cases hm; done) | (cases hf; done) | (cases hf; rfl)

/-- STX (R149). -/
theorem exec_stx (hm : i.mnemonic = .STX) {f : MemForm} (hf : i.form.memory? = some f) (s : State) :
    exec i s = storeReg f .x s := by
  cases i <;> first | (cases hm; done) | (cases hf; done) | (cases hf; rfl)

/-- STY (R150). -/
theorem exec_sty (hm : i.mnemonic = .STY) {f : MemForm} (hf : i.form.memory? = some f) (s : State) :
    exec i s = storeReg f .y s := by
  cases i <;> first | (cases hm; done) | (cases hf; done) | (cases hf; rfl)

/-- Every instruction ends in a next state: a fault it raises is entered, not a stop (R166). -/
theorem exec_next (i : Instr) (s : State) : ∃ t, exec i s = .next t := by
  cases i <;> first | exact Res.outcome_next _ | exact ⟨_, rfl⟩

end Sys2Proof.Machine
end

