-- ==== Sys2Proof/Laws/Operands.lean ====
section
/-! SUPPORT. What the address-mode resolver can do, said once (30_encoding.md R65 to R74): whether it answers or faults, the
state it leaves is the one it was given but for the accesses on the bus, and for fault entry. -/

namespace Sys2Proof.Machine

/-- `t` is `s` but for the accesses on the bus. -/
def SameButBus (s t : State) : Prop := t = { s with bus := t.bus }

theorem SameButBus.refl (s : State) : SameButBus s s := rfl

theorem SameButBus.readDone (s : State) (a : Address) (p : Place) : SameButBus s (s.readDone a p) := rfl

theorem SameButBus.trans {s t u : State} (h : SameButBus s t) (k : SameButBus t u) : SameButBus s u := by
  unfold SameButBus at *
  rw [k, h]

/-- Every field but the bus. -/
theorem SameButBus.fields {s t : State} (h : SameButBus s t) :
    t.pc = s.pc ∧ t.ac = s.ac ∧ t.x = s.x ∧ t.y = s.y ∧ t.sp = s.sp ∧ t.sr = s.sr ∧ t.run = s.run ∧ t.latch = s.latch ∧
    t.haltLatch = s.haltLatch ∧ t.faultRecord = s.faultRecord ∧ t.platform = s.platform ∧ t.mem = s.mem ∧
    t.disturbed = s.disturbed ∧ t.missed = s.missed ∧ t.monitor = s.monitor := by
  rw [h]
  simp

/-- How an operation that only reads ends: with a value, or in FAULTED; nothing but the bus has changed before that. -/
def OnlyReads {α : Type} (s : State) (r : Res α) : Prop :=
  (∃ v t, r = .ok v t ∧ SameButBus s t) ∨ (∃ t f, r = .raised (t.enterFault f) ∧ SameButBus s t)

theorem OnlyReads.ok {α : Type} {s t : State} (v : α) (h : SameButBus s t) : OnlyReads s (.ok v t) :=
  .inl ⟨v, t, rfl, h⟩

theorem OnlyReads.raise {α : Type} {s t : State} (f : Cause) (h : SameButBus s t) :
    OnlyReads s (Machine.raise f t : Res α) :=
  .inr ⟨t, f, rfl, h⟩

theorem OnlyReads.andThen {α β : Type} {s : State} {r : Res α} {next : α → State → Res β} (h : OnlyReads s r)
    (k : ∀ v t, SameButBus s t → OnlyReads t (next v t)) : OnlyReads s (r.andThen next) := by
  obtain ⟨v, t, rfl, ht⟩ | ⟨t, f, rfl, ht⟩ := h
  · obtain ⟨w, u, hu, hs⟩ | ⟨u, f, hu, hs⟩ := k v t ht
    · exact .inl ⟨w, u, hu, ht.trans hs⟩
    · exact .inr ⟨u, f, hu, ht.trans hs⟩
  · exact .inr ⟨t, f, rfl, ht⟩

theorem memRead_onlyReads (a : Address) (s : State) : OnlyReads s (memRead a s) := by
  obtain ⟨p, -, h⟩ | ⟨-, h⟩ := memRead_cases a s
  · exact h ▸ .ok _ (.readDone s a p)
  · exact h ▸ .raise _ (.refl s)

theorem memRead16_onlyReads (a : Address) (s : State) : OnlyReads s (memRead16 a s) :=
  (memRead_onlyReads a s).andThen fun _ t _ => (memRead_onlyReads _ t).andThen fun _ u _ => .ok _ (.refl u)

/-- The resolver changes nothing but the bus (R65 to R72). -/
theorem ea_onlyReads (f : MemForm) (s : State) : OnlyReads s (ea f s) := by
  cases f with
  | indirectX n =>
    simp only [ea]
    split
    · exact .raise _ (.refl s)
    · exact memRead16_onlyReads _ s
  | indirectY n => exact (memRead16_onlyReads _ s).andThen fun _ t _ => .ok _ (.refl t)
  | _ => exact .ok _ (.refl s)

/-- `Operand(mode)` changes nothing but the bus (R74). -/
theorem operand_onlyReads (src : Source) (s : State) : OnlyReads s (operand src s) := by
  cases src with
  | immediate n => exact .ok _ (.refl s)
  | memory f    => exact (ea_onlyReads f s).andThen fun _ t _ => memRead_onlyReads _ t

theorem ea_sameButBus {f : MemForm} {s t : State} {a : Address} (h : ea f s = .ok a t) : SameButBus s t := by
  obtain ⟨v, u, hu, hs⟩ | ⟨u, g, hu, -⟩ := ea_onlyReads f s
  · rw [h] at hu
    injection hu with _ hu
    exact hu ▸ hs
  · rw [h] at hu
    exact absurd hu (by simp)

theorem operand_sameButBus {src : Source} {s t : State} {v : Byte} (h : operand src s = .ok v t) : SameButBus s t := by
  obtain ⟨w, u, hu, hs⟩ | ⟨u, g, hu, -⟩ := operand_onlyReads src s
  · rw [h] at hu
    injection hu with _ hu
    exact hu ▸ hs
  · rw [h] at hu
    exact absurd hu (by simp)

/-- A read that faults is one no binding covers, and leaves fault entry (R35, R166). -/
theorem memRead_raised {a : Address} {s t : State} (h : memRead a s = .raised t) :
    t = s.enterFault (.busFault (.read a)) := by
  obtain ⟨p, -, h'⟩ | ⟨-, h'⟩ := memRead_cases a s
  · rw [h] at h'
    exact absurd h' (by simp)
  · rw [h] at h'
    injection h'

/-- A read that answers was delivered (R33). -/
theorem memRead_ok {a : Address} {s t : State} {v : Byte} (h : memRead a s = .ok v t) :
    ∃ p, route s.platform a = some p ∧ v = s.answer p ∧ t = s.readDone a p := by
  obtain ⟨p, hp, h'⟩ | ⟨-, h'⟩ := memRead_cases a s
  · rw [h] at h'
    injection h' with h1 h2
    exact ⟨p, hp, h1, h2⟩
  · rw [h] at h'
    exact absurd h' (by simp)

theorem memRead16_raised {a : Address} {s t : State} (h : memRead16 a s = .raised t) :
    ∃ b u, SameButBus s u ∧ t = u.enterFault (.busFault (.read b)) := by
  unfold memRead16 at h
  obtain h | ⟨_, u, hu, h⟩ := Res.andThen_eq_raised.1 h
  · exact ⟨_, _, .refl _, memRead_raised h⟩
  · obtain ⟨p, -, -, rfl⟩ := memRead_ok hu
    obtain h | ⟨_, _, _, h⟩ := Res.andThen_eq_raised.1 h
    · exact ⟨_, _, .readDone _ _ _, memRead_raised h⟩
    · exact absurd h (by simp)

/-- The faults the resolver can raise (R71, R162): a read no binding covers, or IndirectXPageCross in indirect,X mode. -/
theorem ea_raised {f : MemForm} {s t : State} (h : ea f s = .raised t) :
    ∃ u, SameButBus s u ∧ ((∃ b, t = u.enterFault (.busFault (.read b))) ∨
      (t = u.enterFault .indirectXPageCross ∧ ∃ n, f = .indirectX n)) := by
  cases f with
  | indirectX n =>
    simp only [ea] at h
    split at h
    · injection h with h
      exact ⟨s, .refl s, .inr ⟨h.symm, n, rfl⟩⟩
    · obtain ⟨b, u, hu, h⟩ := memRead16_raised h
      exact ⟨u, hu, .inl ⟨b, h⟩⟩
  | indirectY n =>
    simp only [ea] at h
    obtain h | ⟨_, _, _, h⟩ := Res.andThen_eq_raised.1 h
    · obtain ⟨b, u, hu, h⟩ := memRead16_raised h
      exact ⟨u, hu, .inl ⟨b, h⟩⟩
    · exact absurd h (by simp)
  | _ => exact absurd h (by simp [ea])

/-- How an instruction that accesses memory in form `f` comes to end in FAULTED with `g` (R160, R162): `u` is the state when the
fault is raised, which differs from `s` in the bus alone. -/
structure AccessFault (f : MemForm) (g : Cause) (s u : State) : Prop where
  same : SameButBus s u
  kind : (∃ m, g = .busFault m) ∨ (g = .indirectXPageCross ∧ ∃ n, f = .indirectX n)
  why  : ea f s = .raised (u.enterFault g) ∨ ∃ a, ea f s = .ok a u ∧ route u.platform a = none

/-- Everything the resolver can do. -/
theorem ea_cases (f : MemForm) (s : State) :
    (∃ a t, ea f s = .ok a t ∧ SameButBus s t) ∨
    (∃ t g, ea f s = .raised (t.enterFault g) ∧ AccessFault f g s t) := by
  cases h : ea f s with
  | ok a t => exact .inl ⟨a, t, rfl, ea_sameButBus h⟩
  | raised t =>
    obtain ⟨u, hu, ⟨b, rfl⟩ | ⟨rfl, hn⟩⟩ := ea_raised h
    · exact .inr ⟨u, _, rfl, hu, .inl ⟨_, rfl⟩, .inl h⟩
    · exact .inr ⟨u, _, rfl, hu, .inr ⟨rfl, hn⟩, .inl h⟩

/-- Everything a read instruction can do (R75): act on the operand, or end in FAULTED with nothing but the bus changed. -/
theorem readThen_cases (src : Source) (act : Byte → State → State) (s : State) :
    (∃ v t, operand src s = .ok v t ∧ SameButBus s t ∧ readThen src act s = .next (act v t)) ∨
    (∃ f t g, src = .memory f ∧ AccessFault f g s t ∧ operand src s = .raised (t.enterFault g) ∧
      readThen src act s = .next (t.enterFault g)) := by
  cases src with
  | immediate n => exact .inl ⟨n, s, rfl, .refl s, rfl⟩
  | memory f =>
    obtain ⟨a, t, h, hs⟩ | ⟨t, g, h, hg⟩ := ea_cases f s
    · obtain ⟨p, hp, hr⟩ | ⟨hp, hr⟩ := memRead_cases a t
      · exact .inl ⟨t.answer p, t.readDone a p, by simp [operand, h, hr], hs.trans (.readDone t a p), by simp [readThen, operand, h, hr]⟩
      · exact .inr ⟨f, t, .busFault (.read a), rfl, ⟨hs, .inl ⟨_, rfl⟩, .inr ⟨a, h, hp⟩⟩, by simp [operand, h, hr],
          by simp [readThen, operand, h, hr]⟩
    · exact .inr ⟨f, t, g, rfl, hg, by simp [operand, h], by simp [readThen, operand, h]⟩

/-- Everything a store can do (R75): one write at the effective address, or end in FAULTED. -/
theorem storeReg_cases (f : MemForm) (r : Reg) (s : State) :
    (∃ a t p, ea f s = .ok a t ∧ SameButBus s t ∧ route t.platform a = some p ∧
      storeReg f r s = .next (t.writeDone a p (t.reg r))) ∨
    (∃ t g, AccessFault f g s t ∧ storeReg f r s = .next (t.enterFault g)) := by
  obtain ⟨a, t, h, hs⟩ | ⟨t, g, h, hg⟩ := ea_cases f s
  · obtain ⟨p, hp, hw⟩ | ⟨hp, hw⟩ := memWrite_cases a (t.reg r) t
    · exact .inl ⟨a, t, p, h, hs, hp, by simp [storeReg, h, hw]⟩
    · exact .inr ⟨t, .busFault (.write a (t.reg r)), ⟨hs, .inl ⟨_, rfl⟩, .inr ⟨a, h, hp⟩⟩, by simp [storeReg, h, hw]⟩
  · exact .inr ⟨t, g, hg, by simp [storeReg, h]⟩

/-- Everything a read-modify-write can do (R75, R90): one read and one write at the effective address and then the flags, or end
in FAULTED. Its write cannot miss the bindings once its read did not. -/
theorem update_cases (f : MemForm) (compute : Byte → State → Byte) (flags : Byte → Byte → State → State) (s : State) :
    (∃ a t p, ea f s = .ok a t ∧ SameButBus s t ∧ route t.platform a = some p ∧
      update f compute flags s =
        .next (flags (t.answer p) (compute (t.answer p) (t.readDone a p))
          ((t.readDone a p).writeDone a p (compute (t.answer p) (t.readDone a p))))) ∨
    (∃ t g, AccessFault f g s t ∧ update f compute flags s = .next (t.enterFault g)) := by
  obtain ⟨a, t, h, hs⟩ | ⟨t, g, h, hg⟩ := ea_cases f s
  · obtain ⟨p, hp, hr⟩ | ⟨hp, hr⟩ := memRead_cases a t
    · refine .inl ⟨a, t, p, h, hs, hp, ?_⟩
      have hp' : route (t.readDone a p).platform a = some p := hp
      simp [update, h, hr, memWrite_of_route _ hp']
    · exact .inr ⟨t, .busFault (.read a), ⟨hs, .inl ⟨_, rfl⟩, .inr ⟨a, h, hp⟩⟩, by simp [update, h, hr]⟩
  · exact .inr ⟨t, g, hg, by simp [update, h]⟩

end Sys2Proof.Machine
end

