-- ==== Sys2Proof/Laws/Effect.lean ====
section
/-! SUPPORT. Everything an instruction can do, said once: `exec_effect` gives, for whatever next state `exec` answers, which shared
operation made it and from which state. Whole-machine rules are a case analysis of `Effect`. -/

namespace Sys2Proof.Machine

/-- What each read instruction does with its operand (R75). -/
inductive ReadAct : Mnemonic → (Byte → State → State) → Prop where
  | adc : ReadAct .ADC Machine.adc
  | sbc : ReadAct .SBC Machine.sbc
  | and : ReadAct .AND (logic (· &&& ·))
  | ora : ReadAct .ORA (logic (· ||| ·))
  | eor : ReadAct .EOR (logic (· ^^^ ·))
  | cmp : ReadAct .CMP (compareReg .ac)
  | cpx : ReadAct .CPX (compareReg .x)
  | cpy : ReadAct .CPY (compareReg .y)
  | lda : ReadAct .LDA (putReg .ac)
  | ldx : ReadAct .LDX (putReg .x)
  | ldy : ReadAct .LDY (putReg .y)

/-- The result and the carry-out of each shift (R91 to R94). -/
inductive ShiftAct : Mnemonic → (Byte → Bool → Byte) → (Byte → Bool) → Prop where
  | asl : ShiftAct .ASL aslResult leftOut
  | lsr : ShiftAct .LSR lsrResult rightOut
  | rol : ShiftAct .ROL rolResult leftOut
  | ror : ShiftAct .ROR rorResult rightOut

/-- What each read-modify-write computes and which flags it sets (R90, R100, R101). -/
inductive UpdateAct : Mnemonic → (Byte → State → Byte) → (Byte → Byte → State → State) → Prop where
  | shift {m : Mnemonic} {result : Byte → Bool → Byte} {out : Byte → Bool} (h : ShiftAct m result out) :
      UpdateAct m (fun v t => result v (flag t.sr .C)) (shiftFlags out)
  | inc : UpdateAct .INC (fun v _ => v + 1) countFlags
  | dec : UpdateAct .DEC (fun v _ => v - 1) countFlags

/-- The register each store writes out (R148 to R150). -/
inductive StoreAct : Mnemonic → Reg → Prop where
  | sta : StoreAct .STA .ac
  | stx : StoreAct .STX .x
  | sty : StoreAct .STY .y

/-- The instructions that touch neither bus nor memory, and what they do to the state. -/
inductive PlainAct : Instr → (State → State) → Prop where
  | inx : PlainAct .inx fun s => putReg .x (s.x + 1) s
  | dex : PlainAct .dex fun s => putReg .x (s.x - 1) s
  | iny : PlainAct .iny fun s => putReg .y (s.y + 1) s
  | dey : PlainAct .dey fun s => putReg .y (s.y - 1) s
  | tax : PlainAct .tax fun s => putReg .x s.ac s
  | tay : PlainAct .tay fun s => putReg .y s.ac s
  | txa : PlainAct .txa fun s => putReg .ac s.x s
  | tya : PlainAct .tya fun s => putReg .ac s.y s
  | txs : PlainAct .txs fun s => s.setReg .sp s.x
  | clc : PlainAct .clc fun s => s.setFlag .C false
  | sec : PlainAct .sec fun s => s.setFlag .C true
  | cli : PlainAct .cli fun s => s.setFlag .I false
  | sei : PlainAct .sei fun s => s.setFlag .I true
  | cld : PlainAct .cld fun s => s.setFlag .D false
  | nop : PlainAct .nop fun s => s
  | hlt : PlainAct .hlt fun s => { s with haltLatch := s.x, run := .halted }
  | jmp (w : Address) : PlainAct (.jmp w) fun s => s.setPc w
  | bcc (n : Byte) : PlainAct (.bcc n) fun s => if !flag s.sr .C then s.setPc (s.pc + sext16 n) else s
  | bcs (n : Byte) : PlainAct (.bcs n) fun s => if flag s.sr .C then s.setPc (s.pc + sext16 n) else s
  | beq (n : Byte) : PlainAct (.beq n) fun s => if flag s.sr .Z then s.setPc (s.pc + sext16 n) else s
  | bne (n : Byte) : PlainAct (.bne n) fun s => if !flag s.sr .Z then s.setPc (s.pc + sext16 n) else s
  | bmi (n : Byte) : PlainAct (.bmi n) fun s => if flag s.sr .N then s.setPc (s.pc + sext16 n) else s
  | bpl (n : Byte) : PlainAct (.bpl n) fun s => if !flag s.sr .N then s.setPc (s.pc + sext16 n) else s

/-- Every way an instruction `i` can take `s` to a next state. -/
inductive Effect (i : Instr) (s : State) : State → Prop where
  /-- A read instruction, its operand read. -/
  | read {m : Mnemonic} {src : Source} {act : Byte → State → State} {v : Byte} {u : State} (hf : i.form.source? = some src)
      (hm : i.mnemonic = m) (ha : ReadAct m act) (ho : operand src s = .ok v u) (hs : SameButBus s u) : Effect i s (act v u)
  /-- A store, its address resolved and covered. -/
  | store {m : Mnemonic} {f : MemForm} {r : Reg} {a : Address} {p : Place} {u : State} (hf : i.form = .memory f)
      (hm : i.mnemonic = m) (ha : StoreAct m r) (he : ea f s = .ok a u) (hp : route u.platform a = some p) (hs : SameButBus s u) : Effect i s (u.writeDone a p (u.reg r))
  /-- A read-modify-write, its address resolved and covered. -/
  | update {m : Mnemonic} {f : MemForm} {compute : Byte → State → Byte} {flags : Byte → Byte → State → State} {a : Address}
      {p : Place} {u : State} (hf : i.form = .memory f) (hm : i.mnemonic = m) (ha : UpdateAct m compute flags) (he : ea f s = .ok a u)
      (hp : route u.platform a = some p) (hs : SameButBus s u) :
      Effect i s (flags (u.answer p) (compute (u.answer p) (u.readDone a p))
        ((u.readDone a p).writeDone a p (compute (u.answer p) (u.readDone a p))))
  /-- One of those three, ended in FAULTED by its address or by its access. -/
  | faulted {f : MemForm} {g : Cause} {u : State} (hf : i.form = .memory f) (hm : i.mnemonic ∉ [.JMP, .JSR])
      (hg : AccessFault f g s u) : Effect i s (u.enterFault g)
  /-- A shift in accumulator mode. -/
  | shiftAcc {m : Mnemonic} {result : Byte → Bool → Byte} {out : Byte → Bool} (hf : i.form = .accumulator) (hm : i.mnemonic = m)
      (ha : ShiftAct m result out) :
      Effect i s (shiftFlags out s.ac (result s.ac (flag s.sr .C)) (s.setReg .ac (result s.ac (flag s.sr .C))))
  /-- An instruction with no access. -/
  | plain {act : State → State} (ha : PlainAct i act) : Effect i s (act s)
  /-- PHA. -/
  | push {p : Place} (hi : i = .pha) (hp : route s.platform (stackAddr s.sp) = some p) :
      Effect i s ((s.writeDone (stackAddr s.sp) p s.ac).setReg .sp (s.sp - 1))
  | pushFaulted (hi : i = .pha) (hp : route s.platform (stackAddr s.sp) = none) :
      Effect i s (s.enterFault (.busFault (.write (stackAddr s.sp) s.ac)))
  /-- PLA. -/
  | pull {p : Place} (hi : i = .pla) (hp : route s.platform (stackAddr (s.sp + 1)) = some p) :
      Effect i s (putReg .ac (s.answer p) ((s.setReg .sp (s.sp + 1)).readDone (stackAddr (s.sp + 1)) p))
  | pullFaulted (hi : i = .pla) (hp : route s.platform (stackAddr (s.sp + 1)) = none) :
      Effect i s ((s.setReg .sp (s.sp + 1)).enterFault (.busFault (.read (stackAddr (s.sp + 1)))))
  /-- JSR: both bytes pushed; the first write faulted; the second did. -/
  | call {w : Address} {t u : State} (hi : i = .jsr w) (ht : push8 (Sys2Proof.hi (s.pc - 1)) s = .ok () t)
      (hu : push8 (lo (s.pc - 1)) t = .ok () u) : Effect i s (u.setPc w)
  | callFaulted {w : Address} {t : State} (hi : i = .jsr w) (ht : push8 (Sys2Proof.hi (s.pc - 1)) s = .raised t) : Effect i s t
  | callFaulted2 {w : Address} {t u : State} (hi : i = .jsr w) (ht : push8 (Sys2Proof.hi (s.pc - 1)) s = .ok () t)
      (hu : push8 (lo (s.pc - 1)) t = .raised u) : Effect i s u
  /-- RTS: both bytes pulled; the first read faulted; the second did. -/
  | ret {l h : Byte} {t u : State} (hi : i = .rts) (ht : pull8 s = .ok l t) (hu : pull8 t = .ok h u) :
      Effect i s (u.setPc (join h l + 1))
  | retFaulted {t : State} (hi : i = .rts) (ht : pull8 s = .raised t) : Effect i s t
  | retFaulted2 {l : Byte} {t u : State} (hi : i = .rts) (ht : pull8 s = .ok l t) (hu : pull8 t = .raised u) : Effect i s u

theorem Effect.of_readThen {i : Instr} {s t : State} {src : Source} {act : Byte → State → State} (hf : i.form.source? = some src)
    (hm : i.mnemonic ∉ [.JMP, .JSR]) (ha : ReadAct i.mnemonic act) (h : readThen src act s = .next t) : Effect i s t := by
  obtain ⟨v, u, ho, hs, h'⟩ | ⟨f, u, g, hsrc, hg, -, h'⟩ := readThen_cases src act s
  all_goals
    rw [h'] at h
    injection h with h
    subst h
  · exact .read hf rfl ha ho hs
  · subst hsrc
    refine .faulted (f := f) ?_ hm hg
    cases hi : i.form <;> simp_all [Form.source?]

theorem Effect.of_storeReg {i : Instr} {s t : State} {f : MemForm} {r : Reg} (hf : i.form = .memory f) (hm : i.mnemonic ∉ [.JMP, .JSR])
    (ha : StoreAct i.mnemonic r) (h : storeReg f r s = .next t) : Effect i s t := by
  obtain ⟨a, u, p, he, hs, hp, h'⟩ | ⟨u, g, hg, h'⟩ := storeReg_cases f r s
  all_goals
    rw [h'] at h
    injection h with h
    subst h
  · exact .store hf rfl ha he hp hs
  · exact .faulted hf hm hg

theorem Effect.of_update {i : Instr} {s t : State} {f : MemForm} {compute : Byte → State → Byte} {flags : Byte → Byte → State → State}
    (hf : i.form = .memory f) (hm : i.mnemonic ∉ [.JMP, .JSR]) (ha : UpdateAct i.mnemonic compute flags)
    (h : Machine.update f compute flags s = .next t) : Effect i s t := by
  obtain ⟨a, u, p, he, hs, hp, h'⟩ | ⟨u, g, hg, h'⟩ := update_cases f compute flags s
  all_goals
    rw [h'] at h
    injection h with h
    subst h
  · exact .update hf rfl ha he hp hs
  · exact .faulted hf hm hg

theorem Effect.of_plain {i : Instr} {s t : State} {act : State → State} (ha : PlainAct i act)
    (h : (Host.Outcome.next (act s) : Result) = .next t) : Effect i s t := by
  injection h with h
  exact h ▸ .plain ha

theorem Effect.of_shiftAcc {i : Instr} {s t : State} {result : Byte → Bool → Byte} {out : Byte → Bool} (hf : i.form = .accumulator)
    (ha : ShiftAct i.mnemonic result out) (h : Machine.shiftAcc result out s = .next t) : Effect i s t := by
  injection h with h
  exact h ▸ .shiftAcc hf rfl ha

theorem Effect.of_pha {s t : State} (h : exec .pha s = .next t) : Effect .pha s t := by
  rw [exec_pha] at h
  cases hp : route s.platform (stackAddr s.sp) with
  | none =>
    rw [push8_of_unmapped _ hp] at h
    injection h with h
    exact h ▸ .pushFaulted rfl hp
  | some p =>
    rw [push8_of_route _ hp] at h
    injection h with h
    exact h ▸ .push rfl hp

theorem Effect.of_pla {s t : State} (h : exec .pla s = .next t) : Effect .pla s t := by
  rw [exec_pla] at h
  cases hp : route s.platform (stackAddr (s.sp + 1)) with
  | none =>
    rw [pull8_of_unmapped hp] at h
    injection h with h
    exact h ▸ .pullFaulted rfl hp
  | some p =>
    rw [pull8_of_route hp, State.answer_setReg] at h
    injection h with h
    exact h ▸ .pull rfl hp

theorem Effect.of_jsr {s t : State} {w : Address} (h : exec (.jsr w) s = .next t) : Effect (.jsr w) s t := by
  rw [exec_jsr] at h
  cases ht : push8 (Sys2Proof.hi (s.pc - 1)) s with
  | raised u =>
    rw [ht] at h
    injection h with h
    exact h ▸ .callFaulted rfl ht
  | ok _ u =>
    rw [ht, Res.ok_andThen] at h
    cases hu : push8 (lo (s.pc - 1)) u with
    | raised v =>
      rw [hu] at h
      injection h with h
      exact h ▸ .callFaulted2 rfl ht hu
    | ok _ v =>
      rw [hu] at h
      injection h with h
      exact h ▸ .call rfl ht hu

theorem Effect.of_rts {s t : State} (h : exec .rts s = .next t) : Effect .rts s t := by
  rw [exec_rts] at h
  cases ht : pull8 s with
  | raised u =>
    rw [ht] at h
    injection h with h
    exact h ▸ .retFaulted rfl ht
  | ok l u =>
    rw [ht, Res.ok_andThen] at h
    cases hu : pull8 u with
    | raised v =>
      rw [hu] at h
      injection h with h
      exact h ▸ .retFaulted2 rfl ht hu
    | ok k v =>
      rw [hu] at h
      injection h with h
      exact h ▸ .ret rfl ht hu

/-- Everything an instruction can do. -/
theorem exec_effect {i : Instr} {s t : State} (h : exec i s = .next t) : Effect i s t := by
  cases i with
  | adcImm _ | adcZp _ | adcZpx _ | adcAbs _ | adcAbx _ | adcAby _ | adcInx _ | adcIny _ =>
    exact .of_readThen rfl (by simp [Instr.mnemonic]) .adc h
  | sbcImm _ | sbcZp _ | sbcZpx _ | sbcAbs _ | sbcAbx _ | sbcAby _ | sbcInx _ | sbcIny _ =>
    exact .of_readThen rfl (by simp [Instr.mnemonic]) .sbc h
  | andImm _ | andZp _ | andZpx _ | andAbs _ | andAbx _ | andAby _ | andInx _ | andIny _ =>
    exact .of_readThen rfl (by simp [Instr.mnemonic]) .and h
  | oraImm _ | oraZp _ | oraZpx _ | oraAbs _ | oraAbx _ | oraAby _ | oraInx _ | oraIny _ =>
    exact .of_readThen rfl (by simp [Instr.mnemonic]) .ora h
  | eorImm _ | eorZp _ | eorZpx _ | eorAbs _ | eorAbx _ | eorAby _ | eorInx _ | eorIny _ =>
    exact .of_readThen rfl (by simp [Instr.mnemonic]) .eor h
  | aslAcc => exact .of_shiftAcc rfl .asl h
  | aslZp _ | aslZpx _ | aslAbs _ | aslAbx _ =>
    exact .of_update rfl (by simp [Instr.mnemonic]) (.shift .asl) h
  | lsrAcc => exact .of_shiftAcc rfl .lsr h
  | lsrZp _ | lsrZpx _ | lsrAbs _ | lsrAbx _ =>
    exact .of_update rfl (by simp [Instr.mnemonic]) (.shift .lsr) h
  | rolAcc => exact .of_shiftAcc rfl .rol h
  | rolZp _ | rolZpx _ | rolAbs _ | rolAbx _ =>
    exact .of_update rfl (by simp [Instr.mnemonic]) (.shift .rol) h
  | rorAcc => exact .of_shiftAcc rfl .ror h
  | rorZp _ | rorZpx _ | rorAbs _ | rorAbx _ =>
    exact .of_update rfl (by simp [Instr.mnemonic]) (.shift .ror) h
  | cmpImm _ | cmpZp _ | cmpZpx _ | cmpAbs _ | cmpAbx _ | cmpAby _ | cmpInx _ | cmpIny _ =>
    exact .of_readThen rfl (by simp [Instr.mnemonic]) .cmp h
  | cpxImm _ | cpxZp _ | cpxAbs _ =>
    exact .of_readThen rfl (by simp [Instr.mnemonic]) .cpx h
  | cpyImm _ | cpyZp _ | cpyAbs _ =>
    exact .of_readThen rfl (by simp [Instr.mnemonic]) .cpy h
  | incZp _ | incZpx _ | incAbs _ | incAbx _ =>
    exact .of_update rfl (by simp [Instr.mnemonic]) .inc h
  | decZp _ | decZpx _ | decAbs _ | decAbx _ =>
    exact .of_update rfl (by simp [Instr.mnemonic]) .dec h
  | inx => exact .of_plain .inx h
  | dex => exact .of_plain .dex h
  | iny => exact .of_plain .iny h
  | dey => exact .of_plain .dey h
  | bcc n => exact .of_plain (.bcc n) h
  | bcs n => exact .of_plain (.bcs n) h
  | beq n => exact .of_plain (.beq n) h
  | bne n => exact .of_plain (.bne n) h
  | bmi n => exact .of_plain (.bmi n) h
  | bpl n => exact .of_plain (.bpl n) h
  | jmp w => exact .of_plain (.jmp w) h
  | jsr _ => exact .of_jsr h
  | rts => exact .of_rts h
  | pha => exact .of_pha h
  | pla => exact .of_pla h
  | tax => exact .of_plain .tax h
  | tay => exact .of_plain .tay h
  | txa => exact .of_plain .txa h
  | tya => exact .of_plain .tya h
  | txs => exact .of_plain .txs h
  | clc => exact .of_plain .clc h
  | sec => exact .of_plain .sec h
  | cli => exact .of_plain .cli h
  | sei => exact .of_plain .sei h
  | cld => exact .of_plain .cld h
  | nop => exact .of_plain .nop h
  | hlt => exact .of_plain .hlt h
  | ldaImm _ | ldaZp _ | ldaZpx _ | ldaAbs _ | ldaAbx _ | ldaAby _ | ldaInx _ | ldaIny _ =>
    exact .of_readThen rfl (by simp [Instr.mnemonic]) .lda h
  | ldxImm _ | ldxZp _ | ldxZpy _ | ldxAbs _ | ldxAby _ =>
    exact .of_readThen rfl (by simp [Instr.mnemonic]) .ldx h
  | ldyImm _ | ldyZp _ | ldyZpx _ | ldyAbs _ | ldyAbx _ =>
    exact .of_readThen rfl (by simp [Instr.mnemonic]) .ldy h
  | staZp _ | staZpx _ | staAbs _ | staAbx _ | staAby _ | staInx _ | staIny _ =>
    exact .of_storeReg rfl (by simp [Instr.mnemonic]) .sta h
  | stxZp _ | stxZpy _ | stxAbs _ =>
    exact .of_storeReg rfl (by simp [Instr.mnemonic]) .stx h
  | styZp _ | styZpx _ | styAbs _ =>
    exact .of_storeReg rfl (by simp [Instr.mnemonic]) .sty h

end Sys2Proof.Machine
end

