-- ==== Sys2Proof/Laws/Flags.lean ====
section
/-! SUPPORT. The bits of SR (10_state.md R14 to R23): writing one flag sets that bit and leaves the others. -/

namespace Sys2Proof.Machine

set_option linter.unusedSimpArgs false in
/-- Writing one flag: that bit takes the value, every other bit stays. -/
@[simp] theorem flag_putFlag (sr : Byte) (f g : Flag) (b : Bool) :
    flag (putFlag sr f b) g = if g = f then b else flag sr g := by
  cases f <;> cases g <;> cases b <;> simp [flag, putFlag, Flag.bit, BitVec.getLsbD_or, BitVec.getLsbD_and, BitVec.getLsbD_not]

/-- Two status bytes with the same eight flags are the same byte. -/
theorem sr_ext {a b : Byte} (h : ∀ f, flag a f = flag b f) : a = b := by
  apply BitVec.eq_of_getLsbD_eq
  intro i hi
  match i, hi with
  | 0, _ => exact h .C
  | 1, _ => exact h .Z
  | 2, _ => exact h .I
  | 3, _ => exact h .D
  | 4, _ => exact h .B
  | 5, _ => exact h .U
  | 6, _ => exact h .V
  | 7, _ => exact h .N

theorem putFlag_comm (sr : Byte) {f g : Flag} (h : f ≠ g) (b c : Bool) :
    putFlag (putFlag sr f b) g c = putFlag (putFlag sr g c) f b := by
  apply sr_ext
  intro k
  simp only [flag_putFlag]
  by_cases hg : k = g <;> by_cases hf : k = f <;> simp_all

@[simp] theorem putFlag_putFlag (sr : Byte) (f : Flag) (b c : Bool) : putFlag (putFlag sr f b) f c = putFlag sr f c := by
  apply sr_ext
  intro k
  simp only [flag_putFlag]
  by_cases hf : k = f <;> simp_all

/-- `SetZN(v)` makes Z and N reflect `v` (R23). -/
theorem setZN_reflects (v : Byte) (s : State) : ReflectsZN (setZN v s).sr v := by
  constructor
  · simp
  · simp [BitVec.msb_eq_getLsbD_last]

/-- `SetZN(v)` writes Z and N and nothing else (R23). -/
theorem setZN_flag (v : Byte) (s : State) {f : Flag} (hz : f ≠ .Z) (hn : f ≠ .N) :
    flag (setZN v s).sr f = flag s.sr f := by
  simp [hz, hn]

end Sys2Proof.Machine
end

