-- ==== Sys2Proof/Laws/PerInstr.lean ====
section
/-! SUPPORT. Per-instruction families, one lemma per constructor. `EncodedLength`: the encoding of an instruction is as long as its
mode says (30_encoding.md R51), and its mnemonic has its mode (R56). `Rebuilt`: the descriptor of its opcode byte rebuilds it
from its operand bytes (R52, R53). -/

namespace Sys2Proof.Laws.EncodedLength

/-- The bytes of an instruction are as many as its mode's length, and its mnemonic has its mode. -/
def Statement (i : Instr) : Prop := (encode i).length = i.length ∧ i.wf = true

theorem adcImm (n : Byte) : Statement (.adcImm n) := ⟨rfl, rfl⟩
theorem adcZp (n : Byte) : Statement (.adcZp n) := ⟨rfl, rfl⟩
theorem adcZpx (n : Byte) : Statement (.adcZpx n) := ⟨rfl, rfl⟩
theorem adcAbs (w : Address) : Statement (.adcAbs w) := ⟨rfl, rfl⟩
theorem adcAbx (w : Address) : Statement (.adcAbx w) := ⟨rfl, rfl⟩
theorem adcAby (w : Address) : Statement (.adcAby w) := ⟨rfl, rfl⟩
theorem adcInx (n : Byte) : Statement (.adcInx n) := ⟨rfl, rfl⟩
theorem adcIny (n : Byte) : Statement (.adcIny n) := ⟨rfl, rfl⟩
theorem sbcImm (n : Byte) : Statement (.sbcImm n) := ⟨rfl, rfl⟩
theorem sbcZp (n : Byte) : Statement (.sbcZp n) := ⟨rfl, rfl⟩
theorem sbcZpx (n : Byte) : Statement (.sbcZpx n) := ⟨rfl, rfl⟩
theorem sbcAbs (w : Address) : Statement (.sbcAbs w) := ⟨rfl, rfl⟩
theorem sbcAbx (w : Address) : Statement (.sbcAbx w) := ⟨rfl, rfl⟩
theorem sbcAby (w : Address) : Statement (.sbcAby w) := ⟨rfl, rfl⟩
theorem sbcInx (n : Byte) : Statement (.sbcInx n) := ⟨rfl, rfl⟩
theorem sbcIny (n : Byte) : Statement (.sbcIny n) := ⟨rfl, rfl⟩
theorem andImm (n : Byte) : Statement (.andImm n) := ⟨rfl, rfl⟩
theorem andZp (n : Byte) : Statement (.andZp n) := ⟨rfl, rfl⟩
theorem andZpx (n : Byte) : Statement (.andZpx n) := ⟨rfl, rfl⟩
theorem andAbs (w : Address) : Statement (.andAbs w) := ⟨rfl, rfl⟩
theorem andAbx (w : Address) : Statement (.andAbx w) := ⟨rfl, rfl⟩
theorem andAby (w : Address) : Statement (.andAby w) := ⟨rfl, rfl⟩
theorem andInx (n : Byte) : Statement (.andInx n) := ⟨rfl, rfl⟩
theorem andIny (n : Byte) : Statement (.andIny n) := ⟨rfl, rfl⟩
theorem oraImm (n : Byte) : Statement (.oraImm n) := ⟨rfl, rfl⟩
theorem oraZp (n : Byte) : Statement (.oraZp n) := ⟨rfl, rfl⟩
theorem oraZpx (n : Byte) : Statement (.oraZpx n) := ⟨rfl, rfl⟩
theorem oraAbs (w : Address) : Statement (.oraAbs w) := ⟨rfl, rfl⟩
theorem oraAbx (w : Address) : Statement (.oraAbx w) := ⟨rfl, rfl⟩
theorem oraAby (w : Address) : Statement (.oraAby w) := ⟨rfl, rfl⟩
theorem oraInx (n : Byte) : Statement (.oraInx n) := ⟨rfl, rfl⟩
theorem oraIny (n : Byte) : Statement (.oraIny n) := ⟨rfl, rfl⟩
theorem eorImm (n : Byte) : Statement (.eorImm n) := ⟨rfl, rfl⟩
theorem eorZp (n : Byte) : Statement (.eorZp n) := ⟨rfl, rfl⟩
theorem eorZpx (n : Byte) : Statement (.eorZpx n) := ⟨rfl, rfl⟩
theorem eorAbs (w : Address) : Statement (.eorAbs w) := ⟨rfl, rfl⟩
theorem eorAbx (w : Address) : Statement (.eorAbx w) := ⟨rfl, rfl⟩
theorem eorAby (w : Address) : Statement (.eorAby w) := ⟨rfl, rfl⟩
theorem eorInx (n : Byte) : Statement (.eorInx n) := ⟨rfl, rfl⟩
theorem eorIny (n : Byte) : Statement (.eorIny n) := ⟨rfl, rfl⟩
theorem aslAcc : Statement (.aslAcc) := ⟨rfl, rfl⟩
theorem aslZp (n : Byte) : Statement (.aslZp n) := ⟨rfl, rfl⟩
theorem aslZpx (n : Byte) : Statement (.aslZpx n) := ⟨rfl, rfl⟩
theorem aslAbs (w : Address) : Statement (.aslAbs w) := ⟨rfl, rfl⟩
theorem aslAbx (w : Address) : Statement (.aslAbx w) := ⟨rfl, rfl⟩
theorem lsrAcc : Statement (.lsrAcc) := ⟨rfl, rfl⟩
theorem lsrZp (n : Byte) : Statement (.lsrZp n) := ⟨rfl, rfl⟩
theorem lsrZpx (n : Byte) : Statement (.lsrZpx n) := ⟨rfl, rfl⟩
theorem lsrAbs (w : Address) : Statement (.lsrAbs w) := ⟨rfl, rfl⟩
theorem lsrAbx (w : Address) : Statement (.lsrAbx w) := ⟨rfl, rfl⟩
theorem rolAcc : Statement (.rolAcc) := ⟨rfl, rfl⟩
theorem rolZp (n : Byte) : Statement (.rolZp n) := ⟨rfl, rfl⟩
theorem rolZpx (n : Byte) : Statement (.rolZpx n) := ⟨rfl, rfl⟩
theorem rolAbs (w : Address) : Statement (.rolAbs w) := ⟨rfl, rfl⟩
theorem rolAbx (w : Address) : Statement (.rolAbx w) := ⟨rfl, rfl⟩
theorem rorAcc : Statement (.rorAcc) := ⟨rfl, rfl⟩
theorem rorZp (n : Byte) : Statement (.rorZp n) := ⟨rfl, rfl⟩
theorem rorZpx (n : Byte) : Statement (.rorZpx n) := ⟨rfl, rfl⟩
theorem rorAbs (w : Address) : Statement (.rorAbs w) := ⟨rfl, rfl⟩
theorem rorAbx (w : Address) : Statement (.rorAbx w) := ⟨rfl, rfl⟩
theorem cmpImm (n : Byte) : Statement (.cmpImm n) := ⟨rfl, rfl⟩
theorem cmpZp (n : Byte) : Statement (.cmpZp n) := ⟨rfl, rfl⟩
theorem cmpZpx (n : Byte) : Statement (.cmpZpx n) := ⟨rfl, rfl⟩
theorem cmpAbs (w : Address) : Statement (.cmpAbs w) := ⟨rfl, rfl⟩
theorem cmpAbx (w : Address) : Statement (.cmpAbx w) := ⟨rfl, rfl⟩
theorem cmpAby (w : Address) : Statement (.cmpAby w) := ⟨rfl, rfl⟩
theorem cmpInx (n : Byte) : Statement (.cmpInx n) := ⟨rfl, rfl⟩
theorem cmpIny (n : Byte) : Statement (.cmpIny n) := ⟨rfl, rfl⟩
theorem cpxImm (n : Byte) : Statement (.cpxImm n) := ⟨rfl, rfl⟩
theorem cpxZp (n : Byte) : Statement (.cpxZp n) := ⟨rfl, rfl⟩
theorem cpxAbs (w : Address) : Statement (.cpxAbs w) := ⟨rfl, rfl⟩
theorem cpyImm (n : Byte) : Statement (.cpyImm n) := ⟨rfl, rfl⟩
theorem cpyZp (n : Byte) : Statement (.cpyZp n) := ⟨rfl, rfl⟩
theorem cpyAbs (w : Address) : Statement (.cpyAbs w) := ⟨rfl, rfl⟩
theorem incZp (n : Byte) : Statement (.incZp n) := ⟨rfl, rfl⟩
theorem incZpx (n : Byte) : Statement (.incZpx n) := ⟨rfl, rfl⟩
theorem incAbs (w : Address) : Statement (.incAbs w) := ⟨rfl, rfl⟩
theorem incAbx (w : Address) : Statement (.incAbx w) := ⟨rfl, rfl⟩
theorem decZp (n : Byte) : Statement (.decZp n) := ⟨rfl, rfl⟩
theorem decZpx (n : Byte) : Statement (.decZpx n) := ⟨rfl, rfl⟩
theorem decAbs (w : Address) : Statement (.decAbs w) := ⟨rfl, rfl⟩
theorem decAbx (w : Address) : Statement (.decAbx w) := ⟨rfl, rfl⟩
theorem inx : Statement (.inx) := ⟨rfl, rfl⟩
theorem dex : Statement (.dex) := ⟨rfl, rfl⟩
theorem iny : Statement (.iny) := ⟨rfl, rfl⟩
theorem dey : Statement (.dey) := ⟨rfl, rfl⟩
theorem bcc (n : Byte) : Statement (.bcc n) := ⟨rfl, rfl⟩
theorem bcs (n : Byte) : Statement (.bcs n) := ⟨rfl, rfl⟩
theorem beq (n : Byte) : Statement (.beq n) := ⟨rfl, rfl⟩
theorem bne (n : Byte) : Statement (.bne n) := ⟨rfl, rfl⟩
theorem bmi (n : Byte) : Statement (.bmi n) := ⟨rfl, rfl⟩
theorem bpl (n : Byte) : Statement (.bpl n) := ⟨rfl, rfl⟩
theorem jmp (w : Address) : Statement (.jmp w) := ⟨rfl, rfl⟩
theorem jsr (w : Address) : Statement (.jsr w) := ⟨rfl, rfl⟩
theorem rts : Statement (.rts) := ⟨rfl, rfl⟩
theorem pha : Statement (.pha) := ⟨rfl, rfl⟩
theorem pla : Statement (.pla) := ⟨rfl, rfl⟩
theorem tax : Statement (.tax) := ⟨rfl, rfl⟩
theorem tay : Statement (.tay) := ⟨rfl, rfl⟩
theorem txa : Statement (.txa) := ⟨rfl, rfl⟩
theorem tya : Statement (.tya) := ⟨rfl, rfl⟩
theorem txs : Statement (.txs) := ⟨rfl, rfl⟩
theorem clc : Statement (.clc) := ⟨rfl, rfl⟩
theorem sec : Statement (.sec) := ⟨rfl, rfl⟩
theorem cli : Statement (.cli) := ⟨rfl, rfl⟩
theorem sei : Statement (.sei) := ⟨rfl, rfl⟩
theorem cld : Statement (.cld) := ⟨rfl, rfl⟩
theorem nop : Statement (.nop) := ⟨rfl, rfl⟩
theorem hlt : Statement (.hlt) := ⟨rfl, rfl⟩
theorem ldaImm (n : Byte) : Statement (.ldaImm n) := ⟨rfl, rfl⟩
theorem ldaZp (n : Byte) : Statement (.ldaZp n) := ⟨rfl, rfl⟩
theorem ldaZpx (n : Byte) : Statement (.ldaZpx n) := ⟨rfl, rfl⟩
theorem ldaAbs (w : Address) : Statement (.ldaAbs w) := ⟨rfl, rfl⟩
theorem ldaAbx (w : Address) : Statement (.ldaAbx w) := ⟨rfl, rfl⟩
theorem ldaAby (w : Address) : Statement (.ldaAby w) := ⟨rfl, rfl⟩
theorem ldaInx (n : Byte) : Statement (.ldaInx n) := ⟨rfl, rfl⟩
theorem ldaIny (n : Byte) : Statement (.ldaIny n) := ⟨rfl, rfl⟩
theorem ldxImm (n : Byte) : Statement (.ldxImm n) := ⟨rfl, rfl⟩
theorem ldxZp (n : Byte) : Statement (.ldxZp n) := ⟨rfl, rfl⟩
theorem ldxZpy (n : Byte) : Statement (.ldxZpy n) := ⟨rfl, rfl⟩
theorem ldxAbs (w : Address) : Statement (.ldxAbs w) := ⟨rfl, rfl⟩
theorem ldxAby (w : Address) : Statement (.ldxAby w) := ⟨rfl, rfl⟩
theorem ldyImm (n : Byte) : Statement (.ldyImm n) := ⟨rfl, rfl⟩
theorem ldyZp (n : Byte) : Statement (.ldyZp n) := ⟨rfl, rfl⟩
theorem ldyZpx (n : Byte) : Statement (.ldyZpx n) := ⟨rfl, rfl⟩
theorem ldyAbs (w : Address) : Statement (.ldyAbs w) := ⟨rfl, rfl⟩
theorem ldyAbx (w : Address) : Statement (.ldyAbx w) := ⟨rfl, rfl⟩
theorem staZp (n : Byte) : Statement (.staZp n) := ⟨rfl, rfl⟩
theorem staZpx (n : Byte) : Statement (.staZpx n) := ⟨rfl, rfl⟩
theorem staAbs (w : Address) : Statement (.staAbs w) := ⟨rfl, rfl⟩
theorem staAbx (w : Address) : Statement (.staAbx w) := ⟨rfl, rfl⟩
theorem staAby (w : Address) : Statement (.staAby w) := ⟨rfl, rfl⟩
theorem staInx (n : Byte) : Statement (.staInx n) := ⟨rfl, rfl⟩
theorem staIny (n : Byte) : Statement (.staIny n) := ⟨rfl, rfl⟩
theorem stxZp (n : Byte) : Statement (.stxZp n) := ⟨rfl, rfl⟩
theorem stxZpy (n : Byte) : Statement (.stxZpy n) := ⟨rfl, rfl⟩
theorem stxAbs (w : Address) : Statement (.stxAbs w) := ⟨rfl, rfl⟩
theorem styZp (n : Byte) : Statement (.styZp n) := ⟨rfl, rfl⟩
theorem styZpx (n : Byte) : Statement (.styZpx n) := ⟨rfl, rfl⟩
theorem styAbs (w : Address) : Statement (.styAbs w) := ⟨rfl, rfl⟩

end Sys2Proof.Laws.EncodedLength

namespace Sys2Proof.Laws.Rebuilt

/-- What the descriptor `d` makes of the operand bytes `bytes`, if they are as many as it asks for. -/
def rebuild (d : Descriptor) (bytes : List Byte) : Option Instr :=
  match d, bytes with
  | .f1 i, []         => some i
  | .f2 make, [n]     => some (make n)
  | .f3 make, [l, h]  => some (make (join h l))
  | _, _              => none

/-- The descriptor of the opcode byte rebuilds the instruction from its operand bytes. -/
def Statement (i : Instr) : Prop := (descriptor i.opcode).bind (rebuild · i.form.operandBytes) = some i

theorem of_none {op : Byte} {i : Instr} (h : descriptor op = some (.f1 i)) : (descriptor op).bind (rebuild · []) = some i := by
  simp [h, rebuild]

theorem of_byte {op : Byte} {make : Byte → Instr} (h : descriptor op = some (.f2 make)) (n : Byte) :
    (descriptor op).bind (rebuild · [n]) = some (make n) := by
  simp [h, rebuild]

theorem of_word {op : Byte} {make : Address → Instr} (h : descriptor op = some (.f3 make)) (w : Address) :
    (descriptor op).bind (rebuild · [lo w, hi w]) = some (make w) := by
  simp [h, rebuild]

theorem adcImm (n : Byte) : Statement (.adcImm n) := of_byte (op := 0x69) rfl n
theorem adcZp (n : Byte) : Statement (.adcZp n) := of_byte (op := 0x65) rfl n
theorem adcZpx (n : Byte) : Statement (.adcZpx n) := of_byte (op := 0x75) rfl n
theorem adcAbs (w : Address) : Statement (.adcAbs w) := of_word (op := 0x6D) rfl w
theorem adcAbx (w : Address) : Statement (.adcAbx w) := of_word (op := 0x7D) rfl w
theorem adcAby (w : Address) : Statement (.adcAby w) := of_word (op := 0x79) rfl w
theorem adcInx (n : Byte) : Statement (.adcInx n) := of_byte (op := 0x61) rfl n
theorem adcIny (n : Byte) : Statement (.adcIny n) := of_byte (op := 0x71) rfl n
theorem sbcImm (n : Byte) : Statement (.sbcImm n) := of_byte (op := 0xE9) rfl n
theorem sbcZp (n : Byte) : Statement (.sbcZp n) := of_byte (op := 0xE5) rfl n
theorem sbcZpx (n : Byte) : Statement (.sbcZpx n) := of_byte (op := 0xF5) rfl n
theorem sbcAbs (w : Address) : Statement (.sbcAbs w) := of_word (op := 0xED) rfl w
theorem sbcAbx (w : Address) : Statement (.sbcAbx w) := of_word (op := 0xFD) rfl w
theorem sbcAby (w : Address) : Statement (.sbcAby w) := of_word (op := 0xF9) rfl w
theorem sbcInx (n : Byte) : Statement (.sbcInx n) := of_byte (op := 0xE1) rfl n
theorem sbcIny (n : Byte) : Statement (.sbcIny n) := of_byte (op := 0xF1) rfl n
theorem andImm (n : Byte) : Statement (.andImm n) := of_byte (op := 0x29) rfl n
theorem andZp (n : Byte) : Statement (.andZp n) := of_byte (op := 0x25) rfl n
theorem andZpx (n : Byte) : Statement (.andZpx n) := of_byte (op := 0x35) rfl n
theorem andAbs (w : Address) : Statement (.andAbs w) := of_word (op := 0x2D) rfl w
theorem andAbx (w : Address) : Statement (.andAbx w) := of_word (op := 0x3D) rfl w
theorem andAby (w : Address) : Statement (.andAby w) := of_word (op := 0x39) rfl w
theorem andInx (n : Byte) : Statement (.andInx n) := of_byte (op := 0x21) rfl n
theorem andIny (n : Byte) : Statement (.andIny n) := of_byte (op := 0x31) rfl n
theorem oraImm (n : Byte) : Statement (.oraImm n) := of_byte (op := 0x09) rfl n
theorem oraZp (n : Byte) : Statement (.oraZp n) := of_byte (op := 0x05) rfl n
theorem oraZpx (n : Byte) : Statement (.oraZpx n) := of_byte (op := 0x15) rfl n
theorem oraAbs (w : Address) : Statement (.oraAbs w) := of_word (op := 0x0D) rfl w
theorem oraAbx (w : Address) : Statement (.oraAbx w) := of_word (op := 0x1D) rfl w
theorem oraAby (w : Address) : Statement (.oraAby w) := of_word (op := 0x19) rfl w
theorem oraInx (n : Byte) : Statement (.oraInx n) := of_byte (op := 0x01) rfl n
theorem oraIny (n : Byte) : Statement (.oraIny n) := of_byte (op := 0x11) rfl n
theorem eorImm (n : Byte) : Statement (.eorImm n) := of_byte (op := 0x49) rfl n
theorem eorZp (n : Byte) : Statement (.eorZp n) := of_byte (op := 0x45) rfl n
theorem eorZpx (n : Byte) : Statement (.eorZpx n) := of_byte (op := 0x55) rfl n
theorem eorAbs (w : Address) : Statement (.eorAbs w) := of_word (op := 0x4D) rfl w
theorem eorAbx (w : Address) : Statement (.eorAbx w) := of_word (op := 0x5D) rfl w
theorem eorAby (w : Address) : Statement (.eorAby w) := of_word (op := 0x59) rfl w
theorem eorInx (n : Byte) : Statement (.eorInx n) := of_byte (op := 0x41) rfl n
theorem eorIny (n : Byte) : Statement (.eorIny n) := of_byte (op := 0x51) rfl n
theorem aslAcc : Statement (.aslAcc) := of_none (op := 0x0A) rfl
theorem aslZp (n : Byte) : Statement (.aslZp n) := of_byte (op := 0x06) rfl n
theorem aslZpx (n : Byte) : Statement (.aslZpx n) := of_byte (op := 0x16) rfl n
theorem aslAbs (w : Address) : Statement (.aslAbs w) := of_word (op := 0x0E) rfl w
theorem aslAbx (w : Address) : Statement (.aslAbx w) := of_word (op := 0x1E) rfl w
theorem lsrAcc : Statement (.lsrAcc) := of_none (op := 0x4A) rfl
theorem lsrZp (n : Byte) : Statement (.lsrZp n) := of_byte (op := 0x46) rfl n
theorem lsrZpx (n : Byte) : Statement (.lsrZpx n) := of_byte (op := 0x56) rfl n
theorem lsrAbs (w : Address) : Statement (.lsrAbs w) := of_word (op := 0x4E) rfl w
theorem lsrAbx (w : Address) : Statement (.lsrAbx w) := of_word (op := 0x5E) rfl w
theorem rolAcc : Statement (.rolAcc) := of_none (op := 0x2A) rfl
theorem rolZp (n : Byte) : Statement (.rolZp n) := of_byte (op := 0x26) rfl n
theorem rolZpx (n : Byte) : Statement (.rolZpx n) := of_byte (op := 0x36) rfl n
theorem rolAbs (w : Address) : Statement (.rolAbs w) := of_word (op := 0x2E) rfl w
theorem rolAbx (w : Address) : Statement (.rolAbx w) := of_word (op := 0x3E) rfl w
theorem rorAcc : Statement (.rorAcc) := of_none (op := 0x6A) rfl
theorem rorZp (n : Byte) : Statement (.rorZp n) := of_byte (op := 0x66) rfl n
theorem rorZpx (n : Byte) : Statement (.rorZpx n) := of_byte (op := 0x76) rfl n
theorem rorAbs (w : Address) : Statement (.rorAbs w) := of_word (op := 0x6E) rfl w
theorem rorAbx (w : Address) : Statement (.rorAbx w) := of_word (op := 0x7E) rfl w
theorem cmpImm (n : Byte) : Statement (.cmpImm n) := of_byte (op := 0xC9) rfl n
theorem cmpZp (n : Byte) : Statement (.cmpZp n) := of_byte (op := 0xC5) rfl n
theorem cmpZpx (n : Byte) : Statement (.cmpZpx n) := of_byte (op := 0xD5) rfl n
theorem cmpAbs (w : Address) : Statement (.cmpAbs w) := of_word (op := 0xCD) rfl w
theorem cmpAbx (w : Address) : Statement (.cmpAbx w) := of_word (op := 0xDD) rfl w
theorem cmpAby (w : Address) : Statement (.cmpAby w) := of_word (op := 0xD9) rfl w
theorem cmpInx (n : Byte) : Statement (.cmpInx n) := of_byte (op := 0xC1) rfl n
theorem cmpIny (n : Byte) : Statement (.cmpIny n) := of_byte (op := 0xD1) rfl n
theorem cpxImm (n : Byte) : Statement (.cpxImm n) := of_byte (op := 0xE0) rfl n
theorem cpxZp (n : Byte) : Statement (.cpxZp n) := of_byte (op := 0xE4) rfl n
theorem cpxAbs (w : Address) : Statement (.cpxAbs w) := of_word (op := 0xEC) rfl w
theorem cpyImm (n : Byte) : Statement (.cpyImm n) := of_byte (op := 0xC0) rfl n
theorem cpyZp (n : Byte) : Statement (.cpyZp n) := of_byte (op := 0xC4) rfl n
theorem cpyAbs (w : Address) : Statement (.cpyAbs w) := of_word (op := 0xCC) rfl w
theorem incZp (n : Byte) : Statement (.incZp n) := of_byte (op := 0xE6) rfl n
theorem incZpx (n : Byte) : Statement (.incZpx n) := of_byte (op := 0xF6) rfl n
theorem incAbs (w : Address) : Statement (.incAbs w) := of_word (op := 0xEE) rfl w
theorem incAbx (w : Address) : Statement (.incAbx w) := of_word (op := 0xFE) rfl w
theorem decZp (n : Byte) : Statement (.decZp n) := of_byte (op := 0xC6) rfl n
theorem decZpx (n : Byte) : Statement (.decZpx n) := of_byte (op := 0xD6) rfl n
theorem decAbs (w : Address) : Statement (.decAbs w) := of_word (op := 0xCE) rfl w
theorem decAbx (w : Address) : Statement (.decAbx w) := of_word (op := 0xDE) rfl w
theorem inx : Statement (.inx) := of_none (op := 0xE8) rfl
theorem dex : Statement (.dex) := of_none (op := 0xCA) rfl
theorem iny : Statement (.iny) := of_none (op := 0xC8) rfl
theorem dey : Statement (.dey) := of_none (op := 0x88) rfl
theorem bcc (n : Byte) : Statement (.bcc n) := of_byte (op := 0x90) rfl n
theorem bcs (n : Byte) : Statement (.bcs n) := of_byte (op := 0xB0) rfl n
theorem beq (n : Byte) : Statement (.beq n) := of_byte (op := 0xF0) rfl n
theorem bne (n : Byte) : Statement (.bne n) := of_byte (op := 0xD0) rfl n
theorem bmi (n : Byte) : Statement (.bmi n) := of_byte (op := 0x30) rfl n
theorem bpl (n : Byte) : Statement (.bpl n) := of_byte (op := 0x10) rfl n
theorem jmp (w : Address) : Statement (.jmp w) := of_word (op := 0x4C) rfl w
theorem jsr (w : Address) : Statement (.jsr w) := of_word (op := 0x20) rfl w
theorem rts : Statement (.rts) := of_none (op := 0x60) rfl
theorem pha : Statement (.pha) := of_none (op := 0x48) rfl
theorem pla : Statement (.pla) := of_none (op := 0x68) rfl
theorem tax : Statement (.tax) := of_none (op := 0xAA) rfl
theorem tay : Statement (.tay) := of_none (op := 0xA8) rfl
theorem txa : Statement (.txa) := of_none (op := 0x8A) rfl
theorem tya : Statement (.tya) := of_none (op := 0x98) rfl
theorem txs : Statement (.txs) := of_none (op := 0x9A) rfl
theorem clc : Statement (.clc) := of_none (op := 0x18) rfl
theorem sec : Statement (.sec) := of_none (op := 0x38) rfl
theorem cli : Statement (.cli) := of_none (op := 0x58) rfl
theorem sei : Statement (.sei) := of_none (op := 0x78) rfl
theorem cld : Statement (.cld) := of_none (op := 0xD8) rfl
theorem nop : Statement (.nop) := of_none (op := 0xEA) rfl
theorem hlt : Statement (.hlt) := of_none (op := 0xFF) rfl
theorem ldaImm (n : Byte) : Statement (.ldaImm n) := of_byte (op := 0xA9) rfl n
theorem ldaZp (n : Byte) : Statement (.ldaZp n) := of_byte (op := 0xA5) rfl n
theorem ldaZpx (n : Byte) : Statement (.ldaZpx n) := of_byte (op := 0xB5) rfl n
theorem ldaAbs (w : Address) : Statement (.ldaAbs w) := of_word (op := 0xAD) rfl w
theorem ldaAbx (w : Address) : Statement (.ldaAbx w) := of_word (op := 0xBD) rfl w
theorem ldaAby (w : Address) : Statement (.ldaAby w) := of_word (op := 0xB9) rfl w
theorem ldaInx (n : Byte) : Statement (.ldaInx n) := of_byte (op := 0xA1) rfl n
theorem ldaIny (n : Byte) : Statement (.ldaIny n) := of_byte (op := 0xB1) rfl n
theorem ldxImm (n : Byte) : Statement (.ldxImm n) := of_byte (op := 0xA2) rfl n
theorem ldxZp (n : Byte) : Statement (.ldxZp n) := of_byte (op := 0xA6) rfl n
theorem ldxZpy (n : Byte) : Statement (.ldxZpy n) := of_byte (op := 0xB6) rfl n
theorem ldxAbs (w : Address) : Statement (.ldxAbs w) := of_word (op := 0xAE) rfl w
theorem ldxAby (w : Address) : Statement (.ldxAby w) := of_word (op := 0xBE) rfl w
theorem ldyImm (n : Byte) : Statement (.ldyImm n) := of_byte (op := 0xA0) rfl n
theorem ldyZp (n : Byte) : Statement (.ldyZp n) := of_byte (op := 0xA4) rfl n
theorem ldyZpx (n : Byte) : Statement (.ldyZpx n) := of_byte (op := 0xB4) rfl n
theorem ldyAbs (w : Address) : Statement (.ldyAbs w) := of_word (op := 0xAC) rfl w
theorem ldyAbx (w : Address) : Statement (.ldyAbx w) := of_word (op := 0xBC) rfl w
theorem staZp (n : Byte) : Statement (.staZp n) := of_byte (op := 0x85) rfl n
theorem staZpx (n : Byte) : Statement (.staZpx n) := of_byte (op := 0x95) rfl n
theorem staAbs (w : Address) : Statement (.staAbs w) := of_word (op := 0x8D) rfl w
theorem staAbx (w : Address) : Statement (.staAbx w) := of_word (op := 0x9D) rfl w
theorem staAby (w : Address) : Statement (.staAby w) := of_word (op := 0x99) rfl w
theorem staInx (n : Byte) : Statement (.staInx n) := of_byte (op := 0x81) rfl n
theorem staIny (n : Byte) : Statement (.staIny n) := of_byte (op := 0x91) rfl n
theorem stxZp (n : Byte) : Statement (.stxZp n) := of_byte (op := 0x86) rfl n
theorem stxZpy (n : Byte) : Statement (.stxZpy n) := of_byte (op := 0x96) rfl n
theorem stxAbs (w : Address) : Statement (.stxAbs w) := of_word (op := 0x8E) rfl w
theorem styZp (n : Byte) : Statement (.styZp n) := of_byte (op := 0x84) rfl n
theorem styZpx (n : Byte) : Statement (.styZpx n) := of_byte (op := 0x94) rfl n
theorem styAbs (w : Address) : Statement (.styAbs w) := of_word (op := 0x8C) rfl w

end Sys2Proof.Laws.Rebuilt
end

