-- ==== Sys2Proof/Laws/Step.lean ====
section
/-! SUPPORT. What fetching, observing and a whole Step can do, said once (30_encoding.md R53, R55; 60_exceptions.md R170). -/

namespace Sys2Proof.Machine

/-- `t` is `s` but for the accesses on the bus and the latch. -/
def SameButFetch (s t : State) : Prop := t = { s with bus := t.bus, latch := t.latch }

/-- Every field but the bus and the latch. -/
theorem SameButFetch.fields {s t : State} (h : SameButFetch s t) :
    t.pc = s.pc ∧ t.ac = s.ac ∧ t.x = s.x ∧ t.y = s.y ∧ t.sp = s.sp ∧ t.sr = s.sr ∧ t.run = s.run ∧
    t.haltLatch = s.haltLatch ∧ t.faultRecord = s.faultRecord ∧ t.platform = s.platform ∧ t.mem = s.mem ∧
    t.disturbed = s.disturbed ∧ t.missed = s.missed ∧ t.monitor = s.monitor := by
  rw [h]
  simp

/-- Everything Decode can do (R53): an instruction, or a fault with `pc` where it was. -/
theorem fetch_cases (s : State) :
    (∃ i t, fetch s = .ok i t ∧ SameButFetch s t) ∨ (∃ t g, fetch s = .raised (t.enterFault g) ∧ SameButFetch s t) := by
  unfold fetch
  obtain ⟨p, -, h⟩ | ⟨-, h⟩ := memRead_cases s.pc (s.setLatch (.fetching s.pc))
  · rw [h, Res.ok_andThen]
    simp only
    split
    · exact .inr ⟨_, _, rfl, rfl⟩
    · rename_i d _
      cases d with
      | f1 i => exact .inl ⟨_, _, rfl, rfl⟩
      | f2 make =>
        simp only [fetchOperand]
        generalize hu : State.setLatch _ _ = u
        have hs : SameButFetch s u := by rw [← hu]; rfl
        obtain ⟨q, -, h⟩ | ⟨-, h⟩ := memRead_cases (u.pc + 1) u
        · rw [h, Res.ok_andThen]
          exact .inl ⟨_, _, rfl, by rw [hs]; rfl⟩
        · rw [h, Res.raised_andThen]
          exact .inr ⟨_, _, rfl, hs⟩
      | f3 make =>
        simp only [fetchOperand]
        generalize hu : State.setLatch _ _ = u
        have hs : SameButFetch s u := by rw [← hu]; rfl
        obtain ⟨w, t, h, ht⟩ | ⟨t, g, h, ht⟩ := memRead16_onlyReads (u.pc + 1) u
        · rw [h, Res.ok_andThen]
          exact .inl ⟨_, _, rfl, by rw [ht, hs]; rfl⟩
        · rw [h, Res.raised_andThen]
          exact .inr ⟨_, _, rfl, by rw [ht, hs]; rfl⟩
  · rw [h, Res.raised_andThen]
    exact .inr ⟨_, _, rfl, rfl⟩

/-- The monitor changes nothing but what it was shown (R171). -/
theorem observe_eq (i : Instr) (s : State) : observe i s = { s with monitor := (observe i s).monitor } := by
  unfold observe
  split <;> rfl

/-- A running core whose bytes decode executes the instruction (R55). -/
theorem step_of_fetch {s t : State} {i : Instr} (hw : s.platform.wf = true) (hr : s.run = .running) (hf : fetch s = .ok i t) :
    step s = endStep (exec i (advance i (observe i t))) := by
  unfold step
  rw [if_pos hw]
  simp only [hr, hf]

/-- A fault in Decode ends the Step (R55). -/
theorem step_of_raised {s t : State} (hw : s.platform.wf = true) (hr : s.run = .running) (hf : fetch s = .raised t) :
    step s = .next (t.setLatch .empty) := by
  unfold step
  rw [if_pos hw]
  simp only [hr, hf]
  rfl

/-- Everything a Step that answers a next state can be. -/
theorem step_cases {s t : State} (h : step s = .next t) : s.platform.wf = true ∧ s.run = .running ∧
    ((∃ u, fetch s = .raised u ∧ t = u.setLatch .empty) ∨
     (∃ i u v, fetch s = .ok i u ∧ exec i (advance i (observe i u)) = .next v ∧ t = v.setLatch .empty)) := by
  unfold step at h
  split at h
  · rename_i hw
    split at h
    case h_5 hr =>
      refine ⟨hw, hr, ?_⟩
      split at h
      · injection h with h
        exact .inl ⟨_, ‹_›, h.symm⟩
      · rename_i i u hf
        obtain ⟨v, hv⟩ := exec_next i (advance i (observe i u))
        rw [hv] at h
        injection h with h
        exact .inr ⟨i, u, v, hf, hv, h.symm⟩
    all_goals exact absurd h (by simp)
  · exact absurd h (by simp)

/-- Loading bytes keeps the canonical form of memory. -/
theorem pokeAll_wf (bytes : List Byte) (a : Address) {s : State} (h : Memory.wf s.mem = true) :
    Memory.wf (pokeAll bytes a s).mem = true := by
  induction bytes generalizing a s with
  | nil => exact h
  | cons v rest ih => exact ih (a + 1) (State.poke_wf a v h)

end Sys2Proof.Machine
end

