-- ==== Sys2Proof/Tests/Slice0.lean ====
section
/-! SUPPORT. Tests. The expected values of the decode tests come from spec/opcode_table.json, those of the Step tests from
spec/95_test_vectors.md (its part is named at each test), never from the model. The `witness_` theorems show, for each statement
of Certificates/Slice0/Obligations.lean that has hypotheses, states and operands that meet them, clause by clause. -/

namespace Sys2Proof.Tests

open Sys2Proof Sys2Proof.Machine

/-! ## Helpers -/

/-- The start of a vector of 95_test_vectors.md: registers 00, SR 34, RUNNING, one RAM backend, an empty bus log. -/
def start : State := { State.reset with bus := [] }

/-- One RAM backend of the given size at address 0. -/
def lowRam (size : Nat) : Platform := { backends := [{ kind := .ram, size := size }], bindings := [{ backend := 0, base := 0x0000 }] }

/-- Bindings [0000,00FF] and [0101,FFFF] (95_test_vectors.md 2.11): only 0x0100 is unmapped. -/
def holed : Platform :=
  { backends := [{ kind := .ram, size := 0x0100 }, { kind := .ram, size := 0xFEFF }]
    bindings := [{ backend := 0, base := 0x0000 }, { backend := 1, base := 0x0101 }] }

/-- Bindings [0000,7FFF] and [8000,FFFF] on two RAM backends (95_test_vectors.md W7). -/
def halves : Platform :=
  { backends := [{ kind := .ram, size := 0x8000 }, { kind := .ram, size := 0x8000 }]
    bindings := [{ backend := 0, base := 0x0000 }, { backend := 1, base := 0x8000 }] }

/-- RAM at 0x0000, a device at 0x8000, the same RAM again at 0x9000 (so that 0x9000 names the same byte as 0x0000), ROM at
0xE000. -/
def board : Platform :=
  { backends := [{ kind := .ram, size := 0x1000 }, { kind := .device, size := 0x10 }, { kind := .rom, size := 0x2000 }]
    bindings := [{ backend := 0, base := 0x0000 }, { backend := 1, base := 0x8000 }, { backend := 0, base := 0x9000 },
                 { backend := 2, base := 0xE000 }] }

/-- `s` about to run `code`, which stands at `pc`. -/
def at_ (pc : Address) (code : List Byte) (s : State) : State := pokeAll code pc { s with pc := pc }

/-- The state one Step leaves; the state itself where the Step has no next state. -/
def stepped (s : State) : State :=
  match step s with
  | .next t    => t
  | .fault _   => s
  | .refused _ => s

/-- The state an instruction leaves, in the same way. -/
def ran (i : Instr) (s : State) : State :=
  match exec i s with
  | .next t    => t
  | .fault _   => s
  | .refused _ => s

/-- The state Reset leaves, in the same way. -/
def restarted (s : State) : State :=
  match hostReset s with
  | .next t    => t
  | .fault _   => s
  | .refused _ => s

/-- The bytes a run of byte reads delivers, and the state after it. -/
def fetched (n : Nat) (s : State) : Option (List Byte) × State :=
  match readBytes n s.pc s with
  | .ok bytes t => (some bytes, t)
  | .raised t   => (none, t)

/-- A read on the one-backend platform, `rd[a]=v` of 95_test_vectors.md. -/
def rd (a : Address) (v : Byte) : Access := .read a 0 a.toNat v

/-- A write on the one-backend platform, `wr[a]=v` of 95_test_vectors.md. -/
def wr (a : Address) (v : Byte) : Access := .write a 0 a.toNat v

/-- The bus log in the order the accesses happened, without its first `n` entries (the code reads). -/
def accesses (n : Nat) (s : State) : List Access := s.bus.reverse.drop n

/-- What the decoder reads from each table word. -/
def decodeAll (l : List (Nat × Nat)) : List (Option Instr) := l.map (fun w => decodeTableWord w.1 w.2)

/-! ## Decoding: every row of spec/opcode_table.json -/

/-- Row 0x of the opcode grid (R56): each word, and the instruction of its row of spec/opcode_table.json. -/
theorem test_decode_row_0 : decodeAll
    [(16, 0x9C01), (16, 0x9C05), (16, 0x9C06), (16, 0x9C09), (8, 0x0A), (24, 0x80F30D), (24, 0x80F30E)] =
    [.oraInx 0x9C, .oraZp 0x9C, .aslZp 0x9C, .oraImm 0x9C, .aslAcc, .oraAbs 0x80F3, .aslAbs 0x80F3].map some := by
  decide

/-- Row 1x of the opcode grid (R56): each word, and the instruction of its row of spec/opcode_table.json. -/
theorem test_decode_row_1 : decodeAll
    [(16, 0x9C10), (16, 0x9C11), (16, 0x9C15), (16, 0x9C16), (8, 0x18), (24, 0x80F319), (24, 0x80F31D),
     (24, 0x80F31E)] =
    [.bpl 0x9C, .oraIny 0x9C, .oraZpx 0x9C, .aslZpx 0x9C, .clc, .oraAby 0x80F3, .oraAbx 0x80F3, .aslAbx 0x80F3].map some := by
  decide

/-- Row 2x of the opcode grid (R56): each word, and the instruction of its row of spec/opcode_table.json. -/
theorem test_decode_row_2 : decodeAll
    [(24, 0x80F320), (16, 0x9C21), (16, 0x9C25), (16, 0x9C26), (16, 0x9C29), (8, 0x2A), (24, 0x80F32D),
     (24, 0x80F32E)] =
    [.jsr 0x80F3, .andInx 0x9C, .andZp 0x9C, .rolZp 0x9C, .andImm 0x9C, .rolAcc, .andAbs 0x80F3, .rolAbs 0x80F3].map some := by
  decide

/-- Row 3x of the opcode grid (R56): each word, and the instruction of its row of spec/opcode_table.json. -/
theorem test_decode_row_3 : decodeAll
    [(16, 0x9C30), (16, 0x9C31), (16, 0x9C35), (16, 0x9C36), (8, 0x38), (24, 0x80F339), (24, 0x80F33D),
     (24, 0x80F33E)] =
    [.bmi 0x9C, .andIny 0x9C, .andZpx 0x9C, .rolZpx 0x9C, .sec, .andAby 0x80F3, .andAbx 0x80F3, .rolAbx 0x80F3].map some := by
  decide

/-- Row 4x of the opcode grid (R56): each word, and the instruction of its row of spec/opcode_table.json. -/
theorem test_decode_row_4 : decodeAll
    [(16, 0x9C41), (16, 0x9C45), (16, 0x9C46), (8, 0x48), (16, 0x9C49), (8, 0x4A), (24, 0x80F34C), (24, 0x80F34D),
     (24, 0x80F34E)] =
    [.eorInx 0x9C, .eorZp 0x9C, .lsrZp 0x9C, .pha, .eorImm 0x9C, .lsrAcc, .jmp 0x80F3, .eorAbs 0x80F3, .lsrAbs 0x80F3].map some := by
  decide

/-- Row 5x of the opcode grid (R56): each word, and the instruction of its row of spec/opcode_table.json. -/
theorem test_decode_row_5 : decodeAll
    [(16, 0x9C51), (16, 0x9C55), (16, 0x9C56), (8, 0x58), (24, 0x80F359), (24, 0x80F35D), (24, 0x80F35E)] =
    [.eorIny 0x9C, .eorZpx 0x9C, .lsrZpx 0x9C, .cli, .eorAby 0x80F3, .eorAbx 0x80F3, .lsrAbx 0x80F3].map some := by
  decide

/-- Row 6x of the opcode grid (R56): each word, and the instruction of its row of spec/opcode_table.json. -/
theorem test_decode_row_6 : decodeAll
    [(8, 0x60), (16, 0x9C61), (16, 0x9C65), (16, 0x9C66), (8, 0x68), (16, 0x9C69), (8, 0x6A), (24, 0x80F36D),
     (24, 0x80F36E)] =
    [.rts, .adcInx 0x9C, .adcZp 0x9C, .rorZp 0x9C, .pla, .adcImm 0x9C, .rorAcc, .adcAbs 0x80F3, .rorAbs 0x80F3].map some := by
  decide

/-- Row 7x of the opcode grid (R56): each word, and the instruction of its row of spec/opcode_table.json. -/
theorem test_decode_row_7 : decodeAll
    [(16, 0x9C71), (16, 0x9C75), (16, 0x9C76), (8, 0x78), (24, 0x80F379), (24, 0x80F37D), (24, 0x80F37E)] =
    [.adcIny 0x9C, .adcZpx 0x9C, .rorZpx 0x9C, .sei, .adcAby 0x80F3, .adcAbx 0x80F3, .rorAbx 0x80F3].map some := by
  decide

/-- Row 8x of the opcode grid (R56): each word, and the instruction of its row of spec/opcode_table.json. -/
theorem test_decode_row_8 : decodeAll
    [(16, 0x9C81), (16, 0x9C84), (16, 0x9C85), (16, 0x9C86), (8, 0x88), (8, 0x8A), (24, 0x80F38C), (24, 0x80F38D),
     (24, 0x80F38E)] =
    [.staInx 0x9C, .styZp 0x9C, .staZp 0x9C, .stxZp 0x9C, .dey, .txa, .styAbs 0x80F3, .staAbs 0x80F3, .stxAbs 0x80F3].map some := by
  decide

/-- Row 9x of the opcode grid (R56): each word, and the instruction of its row of spec/opcode_table.json. -/
theorem test_decode_row_9 : decodeAll
    [(16, 0x9C90), (16, 0x9C91), (16, 0x9C94), (16, 0x9C95), (16, 0x9C96), (8, 0x98), (24, 0x80F399), (8, 0x9A),
     (24, 0x80F39D)] =
    [.bcc 0x9C, .staIny 0x9C, .styZpx 0x9C, .staZpx 0x9C, .stxZpy 0x9C, .tya, .staAby 0x80F3, .txs, .staAbx 0x80F3].map some := by
  decide

/-- Row Ax of the opcode grid (R56): each word, and the instruction of its row of spec/opcode_table.json. -/
theorem test_decode_row_A : decodeAll
    [(16, 0x9CA0), (16, 0x9CA1), (16, 0x9CA2), (16, 0x9CA4), (16, 0x9CA5), (16, 0x9CA6), (8, 0xA8), (16, 0x9CA9),
     (8, 0xAA), (24, 0x80F3AC), (24, 0x80F3AD), (24, 0x80F3AE)] =
    [.ldyImm 0x9C, .ldaInx 0x9C, .ldxImm 0x9C, .ldyZp 0x9C, .ldaZp 0x9C, .ldxZp 0x9C, .tay, .ldaImm 0x9C, .tax,
     .ldyAbs 0x80F3, .ldaAbs 0x80F3, .ldxAbs 0x80F3].map some := by
  decide

/-- Row Bx of the opcode grid (R56): each word, and the instruction of its row of spec/opcode_table.json. -/
theorem test_decode_row_B : decodeAll
    [(16, 0x9CB0), (16, 0x9CB1), (16, 0x9CB4), (16, 0x9CB5), (16, 0x9CB6), (24, 0x80F3B9), (24, 0x80F3BC),
     (24, 0x80F3BD), (24, 0x80F3BE)] =
    [.bcs 0x9C, .ldaIny 0x9C, .ldyZpx 0x9C, .ldaZpx 0x9C, .ldxZpy 0x9C, .ldaAby 0x80F3, .ldyAbx 0x80F3,
     .ldaAbx 0x80F3, .ldxAby 0x80F3].map some := by
  decide

/-- Row Cx of the opcode grid (R56): each word, and the instruction of its row of spec/opcode_table.json. -/
theorem test_decode_row_C : decodeAll
    [(16, 0x9CC0), (16, 0x9CC1), (16, 0x9CC4), (16, 0x9CC5), (16, 0x9CC6), (8, 0xC8), (16, 0x9CC9), (8, 0xCA),
     (24, 0x80F3CC), (24, 0x80F3CD), (24, 0x80F3CE)] =
    [.cpyImm 0x9C, .cmpInx 0x9C, .cpyZp 0x9C, .cmpZp 0x9C, .decZp 0x9C, .iny, .cmpImm 0x9C, .dex, .cpyAbs 0x80F3,
     .cmpAbs 0x80F3, .decAbs 0x80F3].map some := by
  decide

/-- Row Dx of the opcode grid (R56): each word, and the instruction of its row of spec/opcode_table.json. -/
theorem test_decode_row_D : decodeAll
    [(16, 0x9CD0), (16, 0x9CD1), (16, 0x9CD5), (16, 0x9CD6), (8, 0xD8), (24, 0x80F3D9), (24, 0x80F3DD),
     (24, 0x80F3DE)] =
    [.bne 0x9C, .cmpIny 0x9C, .cmpZpx 0x9C, .decZpx 0x9C, .cld, .cmpAby 0x80F3, .cmpAbx 0x80F3, .decAbx 0x80F3].map some := by
  decide

/-- Row Ex of the opcode grid (R56): each word, and the instruction of its row of spec/opcode_table.json. -/
theorem test_decode_row_E : decodeAll
    [(16, 0x9CE0), (16, 0x9CE1), (16, 0x9CE4), (16, 0x9CE5), (16, 0x9CE6), (8, 0xE8), (16, 0x9CE9), (8, 0xEA),
     (24, 0x80F3EC), (24, 0x80F3ED), (24, 0x80F3EE)] =
    [.cpxImm 0x9C, .sbcInx 0x9C, .cpxZp 0x9C, .sbcZp 0x9C, .incZp 0x9C, .inx, .sbcImm 0x9C, .nop, .cpxAbs 0x80F3,
     .sbcAbs 0x80F3, .incAbs 0x80F3].map some := by
  decide

/-- Row Fx of the opcode grid (R56): each word, and the instruction of its row of spec/opcode_table.json. -/
theorem test_decode_row_F : decodeAll
    [(16, 0x9CF0), (16, 0x9CF1), (16, 0x9CF5), (16, 0x9CF6), (24, 0x80F3F9), (24, 0x80F3FD), (24, 0x80F3FE),
     (8, 0xFF)] =
    [.beq 0x9C, .sbcIny 0x9C, .sbcZpx 0x9C, .incZpx 0x9C, .sbcAby 0x80F3, .sbcAbx 0x80F3, .incAbx 0x80F3, .hlt].map some := by
  decide

/-- Illegal bytes (R57), among them BRK, JMP indirect and TSX of the MOS chip (95_test_vectors.md 2.11). -/
theorem test_decode_illegal : decodeAll [(8, 0x00), (24, 0x10006C), (8, 0xBA), (8, 0x02), (8, 0xFC), (8, 0xDB)] =
    [none, none, none, none, none, none] := by
  decide

/-- A table word shorter than its instruction has operand bytes of zero. -/
theorem test_decode_short_word : decodeAll [(8, 0xAD), (8, 0x69)] = [some (.ldaAbs 0x0000), some (.adcImm 0x00)] := by decide

/-- Operand bytes are low byte first, and the bytes after the instruction are left (R51, R53). -/
theorem test_decode_rest : decode [0xAD, 0x34, 0x12, 0xEA] = .ok (.ldaAbs 0x1234, [0xEA]) := by rfl

/-- Bytes that end early are rejected by name. -/
theorem test_decode_truncated : decode [0xAD, 0x34] = .error (.operandMissing 0xAD) ∧ decode [] = .error .noOpcode :=
  ⟨rfl, rfl⟩

/-- The encoder on the same words (R51, R61). -/
theorem test_encode : encode (.ldaAbs 0x1234) = [0xAD, 0x34, 0x12] ∧ encode (.beq 0x05) = [0xF0, 0x05] ∧ encode .hlt = [0xFF] := by
  decide

/-! ## WellFormed refuses ill-formed terms -/

/-- Modes a mnemonic does not have (R56, R75): a store has no immediate mode, INC no accumulator mode, JMP no zeropage mode. -/
theorem test_wf_refuses_modes : [admits .STA .immediate, admits .STX .absoluteY, admits .STY .zeropageY, admits .LDX .zeropageX,
    admits .LDY .absoluteY, admits .INC .accumulator, admits .JMP .zeropage, admits .JMP .indirectX, admits .JSR .relative,
    admits .CPX .zeropageX, admits .ASL .absoluteY, admits .ADC .zeropageY, admits .BCC .absolute, admits .NOP .immediate,
    admits .HLT .accumulator].all (· = false) = true := by
  decide

/-- A binding of size 0 is refused (R46). -/
theorem test_wf_refuses_empty_binding : (lowRam 0).wf = false := by decide

/-- A binding that ends above 0xFFFF is refused, one that ends at it is not (R46). -/
theorem test_wf_binding_end :
    (lowRam 65537).wf = false ∧ (lowRam 65536).wf = true ∧
    Platform.wf { backends := [{ kind := .rom, size := 2 }], bindings := [{ backend := 0, base := 0xFFFF }] } = false := by
  decide

/-- A binding to a backend that is not there is refused. -/
theorem test_wf_refuses_missing_backend : Platform.wf { backends := [], bindings := [{ backend := 0, base := 0x0000 }] } = false := by
  decide

/-- A list of cells that is out of order, repeats a key, or lists the fill byte is not a memory. -/
theorem test_memory_wf_refuses : Memory.wf [(5, 1), (4, 1)] = false ∧ Memory.wf [(4, 1), (4, 2)] = false ∧
    Memory.wf [(4, 0)] = false ∧ Memory.wf [(4, 1), (5, 1)] = true := by
  decide

/-- Writing the fill byte removes the cell. -/
theorem test_memory_write_canonical : Memory.write (Memory.write [(9, 7)] 4 1) 4 0 = [(9, 7)] ∧
    Memory.write [(4, 1), (9, 7)] 6 2 = [(4, 1), (6, 2), (9, 7)] := by
  decide

/-! ## One Step: arithmetic, logic, shifts, compares, counts (95_test_vectors.md 2.1 to 2.5) -/

theorem test_adc_carry_out : let t := stepped (at_ 0x1000 [0x69, 0x01] { start with ac := 0xFF });
    (t.ac, t.sr, t.pc) = (0x00, 0x37, 0x1002) := by
  decide

theorem test_adc_signed_overflow_keeps_v : let t := stepped (at_ 0x1000 [0x69, 0x01] { start with ac := 0x7F });
    (t.ac, t.sr) = (0x80, 0xB4) := by
  decide

theorem test_sbc_borrow : let t := stepped (at_ 0x1000 [0xE9, 0x35] { start with ac := 0x34, sr := 0x35 });
    (t.ac, t.sr) = (0xFF, 0xB4) := by
  decide

theorem test_sbc_borrow_zero : let t := stepped (at_ 0x1000 [0xE9, 0xFF] start); (t.ac, t.sr) = (0x00, 0x36) := by decide

theorem test_adc_absoluteX_wraps :
    let t := stepped (at_ 0x1000 [0x7D, 0xF0, 0xFF] ({ start with ac := 0x01, x := 0x20 }.poke 0x0010 0x7E));
    (t.ac, t.sr, t.pc, accesses 3 t) = (0x7F, 0x34, 0x1003, [rd 0x0010 0x7E]) := by
  decide

theorem test_and : let t := stepped (at_ 0x1000 [0x29, 0x00] { start with ac := 0xFF, sr := 0xB4 }); (t.ac, t.sr) = (0x00, 0x36) := by
  decide

theorem test_ora : let t := stepped (at_ 0x1000 [0x09, 0x80] { start with ac := 0x0F }); (t.ac, t.sr) = (0x8F, 0xB4) := by decide

theorem test_eor : let t := stepped (at_ 0x1000 [0x49, 0x5A] { start with ac := 0x5A, sr := 0xB5 }); (t.ac, t.sr) = (0x00, 0x37) := by
  decide

theorem test_asl : let t := stepped (at_ 0x1000 [0x0A] { start with ac := 0x40, sr := 0x35 }); (t.ac, t.sr) = (0x80, 0xB4) := by
  decide

theorem test_lsr : let t := stepped (at_ 0x1000 [0x4A] { start with ac := 0xFF, sr := 0xB4 }); (t.ac, t.sr) = (0x7F, 0x35) := by
  decide

theorem test_rol : let t := stepped (at_ 0x1000 [0x2A] { start with ac := 0x81, sr := 0x35 }); (t.ac, t.sr) = (0x03, 0x35) := by
  decide

theorem test_ror_memory : let t := stepped (at_ 0x1000 [0x6E, 0x00, 0x02] ({ start with sr := 0x35 }.poke 0x0200 0x11));
    (t.sr, t.pc, accesses 3 t) = (0xB5, 0x1003, [rd 0x0200 0x11, wr 0x0200 0x88]) := by
  decide

theorem test_asl_zeropageX_wraps : let t := stepped (at_ 0x1000 [0x16, 0xFF] ({ start with x := 0x02 }.poke 0x0001 0xC0));
    (t.sr, accesses 2 t) = (0xB5, [rd 0x0001 0xC0, wr 0x0001 0x80]) := by
  decide

theorem test_lsr_memory_keeps_ac :
    let t := stepped (at_ 0x1000 [0x5E, 0x00, 0x03] ({ start with ac := 0x77, x := 0x10 }.poke 0x0310 0x03));
    (t.sr, t.ac, accesses 3 t) = (0x35, 0x77, [rd 0x0310 0x03, wr 0x0310 0x01]) := by
  decide

theorem test_cmp_less : let t := stepped (at_ 0x1000 [0xC9, 0x80] { start with ac := 0x01 }); (t.sr, t.ac) = (0xB4, 0x01) := by decide

theorem test_cmp_equal : (stepped (at_ 0x1000 [0xC9, 0x00] { start with sr := 0xB4 })).sr = 0x37 := by decide

theorem test_cpx : (stepped (at_ 0x1000 [0xEC, 0x00, 0x30] ({ start with x := 0x30 }.poke 0x3000 0x2F))).sr = 0x35 := by decide

theorem test_cpy : (stepped (at_ 0x1000 [0xC0, 0x04] { start with y := 0x01 })).sr = 0xB4 := by decide

theorem test_inc_wraps_and_keeps_carry : let t := stepped (at_ 0x1000 [0xE6, 0x10] ({ start with sr := 0x35 }.poke 0x0010 0xFF));
    (t.sr, accesses 2 t) = (0x37, [rd 0x0010 0xFF, wr 0x0010 0x00]) := by
  decide

theorem test_dec_wraps : let t := stepped (at_ 0x1000 [0xCE, 0x00, 0x02] start);
    (t.sr, accesses 3 t, t.peek 0x0200) = (0xB4, [rd 0x0200 0x00, wr 0x0200 0xFF], some 0xFF) := by
  decide

theorem test_inx : let t := stepped (at_ 0x1000 [0xE8] { start with x := 0xFF }); (t.x, t.sr) = (0x00, 0x36) := by decide

theorem test_dex : let t := stepped (at_ 0x1000 [0xCA] start); (t.x, t.sr) = (0xFF, 0xB4) := by decide

theorem test_iny : let t := stepped (at_ 0x1000 [0xC8] { start with y := 0xFF }); (t.y, t.sr) = (0x00, 0x36) := by decide

theorem test_dey : let t := stepped (at_ 0x1000 [0x88] { start with y := 0x01 }); (t.y, t.sr) = (0x00, 0x36) := by decide

/-! ## One Step: control flow, stack, transfers, flags (95_test_vectors.md 2.6 to 2.9) -/

theorem test_bcc : (stepped (at_ 0x2000 [0x90, 0x10] start)).pc = 0x2012 ∧
    (stepped (at_ 0x2000 [0x90, 0x10] { start with sr := 0x35 })).pc = 0x2002 := by
  decide

theorem test_bcs : (stepped (at_ 0x800D [0xB0, 0x02] { start with sr := 0x35 })).pc = 0x8011 := by decide

theorem test_beq_wraps : (stepped (at_ 0xFFFC [0xF0, 0x05] { start with sr := 0x36 })).pc = 0x0003 := by decide

theorem test_bne_at_the_top : (stepped (at_ 0xFFFF [0xD0, 0xFD] start)).pc = 0xFFFE := by decide

theorem test_bmi_backward : (stepped (at_ 0x3000 [0x30, 0x80] { start with sr := 0xB4 })).pc = 0x2F82 := by decide

theorem test_bpl : (stepped (at_ 0x3000 [0x10, 0x7F] start)).pc = 0x3081 ∧
    (stepped (at_ 0x3000 [0x10, 0x7F] { start with sr := 0xB4 })).pc = 0x3002 := by
  decide

theorem test_jmp : let t := stepped (at_ 0x8000 [0x4C, 0x00, 0x90] start); (t.pc, accesses 3 t) = (0x9000, []) := by decide

theorem test_jsr_wraps : let t := stepped (at_ 0x1000 [0x20, 0x34, 0x12] start);
    (t.pc, t.sp, accesses 3 t) = (0x1234, 0xFE, [wr 0x0100 0x10, wr 0x01FF 0x02]) := by
  decide

theorem test_jsr_at_the_top : let t := stepped (at_ 0xFFFD [0x20, 0x34, 0x12] { start with sp := 0x80 });
    (t.pc, t.sp, accesses 3 t) = (0x1234, 0x7E, [wr 0x0180 0xFF, wr 0x017F 0xFF]) := by
  decide

theorem test_rts : let t := stepped (at_ 0x9000 [0x60] (({ start with sp := 0xFD }.poke 0x01FE 0x02).poke 0x01FF 0x10));
    (t.pc, t.sp, accesses 1 t) = (0x1003, 0xFF, [rd 0x01FE 0x02, rd 0x01FF 0x10]) := by
  decide

theorem test_rts_wraps : let t := stepped (at_ 0x9000 [0x60] (({ start with sp := 0xFE }.poke 0x01FF 0xFF).poke 0x0100 0xFF));
    (t.pc, t.sp) = (0x0000, 0x00) := by
  decide

theorem test_pha_wraps : let t := stepped (at_ 0x1000 [0x48] { start with ac := 0x99 });
    (t.sp, t.sr, accesses 1 t) = (0xFF, 0x34, [wr 0x0100 0x99]) := by
  decide

theorem test_pla_sets_n : let t := stepped (at_ 0x1000 [0x68] ({ start with sp := 0x10 }.poke 0x0111 0x80));
    (t.ac, t.sp, t.sr, accesses 1 t) = (0x80, 0x11, 0xB4, [rd 0x0111 0x80]) := by
  decide

theorem test_tax_tay :
    let t := stepped (at_ 0x1000 [0xAA] { start with x := 0x11 })
    let u := stepped (at_ 0x1000 [0xA8] { start with ac := 0xFF })
    (t.x, t.sr, u.y, u.sr) = (0x00, 0x36, 0xFF, 0xB4) := by
  decide

theorem test_txa_tya :
    let t := stepped (at_ 0x1000 [0x8A] { start with ac := 0x33 })
    let u := stepped (at_ 0x1000 [0x98] { start with y := 0x90 })
    (t.ac, t.sr, u.ac, u.sr) = (0x00, 0x36, 0x90, 0xB4) := by
  decide

theorem test_txs_sets_no_flag : let t := stepped (at_ 0x1000 [0x9A] { start with sp := 0x77 }); (t.sp, t.sr) = (0x00, 0x34) := by
  decide

theorem test_flag_instructions : (stepped (at_ 0x1000 [0x18] { start with sr := 0x35 })).sr = 0x34 ∧
    (stepped (at_ 0x1000 [0x38] start)).sr = 0x35 ∧ (stepped (at_ 0x1000 [0x58] start)).sr = 0x30 ∧
    (stepped (at_ 0x1000 [0x78] { start with sr := 0x30 })).sr = 0x34 ∧
    (stepped (at_ 0x1000 [0xD8] { start with sr := 0x3C })).sr = 0x34 := by
  decide

theorem test_nop : let s := at_ 0x8000 [0xEA] { start with ac := 0x01, x := 0x02, y := 0x03, sp := 0x04, sr := 0xB5 };
    stepped s = { s with pc := 0x8001, bus := [rd 0x8000 0xEA] } := by
  decide

theorem test_hlt_wraps : let t := stepped (at_ 0xFFFF [0xFF] { start with x := 0x2A });
    (t.pc, t.run, t.haltLatch, t.x) = (0x0000, .halted, 0x2A, 0x2A) := by
  decide

/-! ## One Step: loads and stores in the modes (95_test_vectors.md 2.10) -/

theorem test_lda_zeropageX_wraps :
    let t := stepped (at_ 0x1000 [0xB5, 0xFF] (({ start with x := 0x02 }.poke 0x0001 0x42).poke 0x0101 0x99));
    (t.ac, t.sr, t.pc, accesses 2 t) = (0x42, 0x34, 0x1002, [rd 0x0001 0x42]) := by
  decide

theorem test_ldx_zeropageY_wraps : let t := stepped (at_ 0x1000 [0xB6, 0x80] ({ start with y := 0x90 }.poke 0x0010 0x99));
    (t.x, t.sr, accesses 2 t) = (0x99, 0xB4, [rd 0x0010 0x99]) := by
  decide

theorem test_ldy_zero : let t := stepped (at_ 0x1000 [0xA0, 0x00] { start with y := 0x09 }); (t.y, t.sr) = (0x00, 0x36) := by decide

theorem test_lda_indirectY_pointer_at_ff :
    let t := stepped (at_ 0x1000 [0xB1, 0xFF]
      (((({ start with y := 0x01 }.poke 0x0100 0x20).poke 0x0000 0x30).poke 0x2001 0xAB).poke 0x3001 0xCD));
    (t.ac, t.sr, accesses 2 t) = (0xAB, 0xB4, [rd 0x00FF 0x00, rd 0x0100 0x20, rd 0x2001 0xAB]) := by
  decide

theorem test_lda_indirectX_index_wraps :
    let t := stepped (at_ 0x1000 [0xA1, 0xFF] ((({ start with x := 0x01 }.poke 0x0000 0x34).poke 0x0001 0x12).poke 0x1234 0x77));
    (t.ac, accesses 2 t) = (0x77, [rd 0x0000 0x34, rd 0x0001 0x12, rd 0x1234 0x77]) := by
  decide

theorem test_sta_absoluteX : let t := stepped (at_ 0x1000 [0x9D, 0x02, 0x02] { start with ac := 0x10, x := 0x02 });
    (t.pc, t.sr, accesses 3 t, t.peek 0x0204) = (0x1003, 0x34, [wr 0x0204 0x10], some 0x10) := by
  decide

theorem test_sta_indirectY : let t := stepped (at_ 0x1000 [0x91, 0x42] ({ start with ac := 0xEE, y := 0x04 }.poke 0x0043 0x02));
    accesses 2 t = [rd 0x0042 0x00, rd 0x0043 0x02, wr 0x0204 0xEE] := by
  decide

theorem test_stx : accesses 2 (stepped (at_ 0x1000 [0x86, 0x10] { start with x := 0x05 })) = [wr 0x0010 0x05] := by decide

theorem test_sty_zeropageX_wraps :
    accesses 2 (stepped (at_ 0x1000 [0x94, 0x20] { start with x := 0xF0, y := 0x33 })) = [wr 0x0010 0x33] := by
  decide

/-! ## Faults, Reset, the platform (95_test_vectors.md 2.11, W2, W7) -/

theorem test_illegal_opcode : let t := stepped (at_ 0x1000 [0x6C, 0x00, 0x10] start);
    (t.run, t.pc, t.bus, t.faultRecord) =
    (.faulted, 0x1000, [rd 0x1000 0x6C], some { fault := .illegalOpcode, pcInstr := some 0x1000, opcode := some 0x6C }) := by
  decide

/-- The Bus write interface keeps the address and the byte of the missed write (R7). -/
theorem test_data_write_faults : let t := stepped (at_ 0x1000 [0x8D, 0x00, 0x90] { start with platform := lowRam 0x8000, ac := 0x5A });
    t.missed = [.write 0x9000 0x5A] ∧ (t.run, t.pc, t.sr, accesses 3 t, t.faultRecord) =
    (.faulted, 0x1003, 0x34, [], some { fault := .busFault .write 0x9000, pcInstr := some 0x1000, opcode := some 0x8D }) := by
  decide

theorem test_second_push_faults : let t := stepped (at_ 0x1000 [0x20, 0x00, 0x20] { start with sp := 0x01, platform := holed });
    (t.run, t.pc, t.sp, accesses 3 t, t.faultRecord) =
    (.faulted, 0x1003, 0x00, [.write 0x0101 1 0x0000 0x10],
      some { fault := .busFault .write 0x0100, pcInstr := some 0x1000, opcode := some 0x20 }) := by
  decide

theorem test_second_pull_faults :
    let t := stepped (at_ 0x1000 [0x60] ({ start with sp := 0xFE, platform := holed }.poke 0x01FF 0x33));
    (t.run, t.pc, t.sp, accesses 1 t) = (.faulted, 0x1001, 0x00, [.read 0x01FF 1 0x00FE 0x33]) := by
  decide

theorem test_operand_fetch_faults : let t := stepped (at_ 0x7FFF [0xA9] { start with platform := lowRam 0x8000 });
    (t.run, t.pc, t.bus, t.faultRecord) =
    (.faulted, 0x7FFF, [rd 0x7FFF 0xA9], some { fault := .busFault .read 0x8000, pcInstr := some 0x7FFF, opcode := some 0xA9 }) := by
  decide

theorem test_indirectX_page_cross : let t := stepped (at_ 0x1000 [0xA1, 0xFE] { start with x := 0x01, ac := 0x55 });
    (t.run, t.pc, t.ac, accesses 2 t, t.faultRecord) =
    (.faulted, 0x1002, 0x55, [], some { fault := .indirectXPageCross, pcInstr := some 0x1000, opcode := some 0xA1 }) := by
  decide

/-- No Step after HLT (2.9), and none after a fault (2.11). -/
theorem test_no_step_after_the_end : (match step { start with run := .halted } with | .fault .haltedCore => true | _ => false) = true ∧
    (match step (stepped (at_ 0x1000 [0x02] start)) with | .fault .faultedCore => true | _ => false) = true := by
  decide

theorem test_reset_vector :
    let t := restarted (((State.powerOn Config.ramPlatform [] 0x1234 0x00 0xAA 0xBB 0xCC 0xDD 0x00 false).poke 0xFFFC 0x00).poke 0xFFFD 0x80);
    (t.pc, t.sr, t.run, accesses 0 t) = (0x8000, 0x34, .running, [rd 0xFFFC 0x00, rd 0xFFFD 0x80]) ∧
    (t.ac, t.x, t.y, t.sp) = (0xAA, 0xBB, 0xCC, 0xDD) := by
  decide

theorem test_reset_vector_faults : let t := restarted { start with platform := lowRam 0x8000, pc := 0x1234, sr := 0x00 };
    (t.pc, t.sr, t.run, t.bus, t.faultRecord) =
    (0x1234, 0x00, .faulted, [], some { fault := .busFault .read 0xFFFC, pcInstr := none, opcode := none }) := by
  decide

theorem test_two_backends : let t := stepped (at_ 0x7FFE [0x4C, 0x34, 0x12] { start with platform := halves });
    (t.pc, accesses 0 t) = (0x1234, [.read 0x7FFE 0 0x7FFE 0x4C, .read 0x7FFF 0 0x7FFF 0x34, .read 0x8000 1 0x0000 0x12]) := by
  decide

/-- An address inside no binding, and the first binding of two that cover an address (R32). -/
theorem test_route : route board 0x2000 = none ∧ (route board 0x9001).map (·.localAddr) = some 1 ∧
    route { board with bindings := { backend := 1, base := 0x0008 } :: board.bindings } 0x0009 =
      some { backend := 1, kind := .device, localAddr := 1 } := by
  decide

/-- A write to one binding of a backend is read at its other binding (R45). -/
theorem test_shared_backend : let t := stepped (at_ 0x0100 [0x8D, 0x05, 0x90] { start with platform := board, ac := 0x6B });
    (t.peek 0x0005, t.peek 0x9005) = (some 0x6B, some 0x6B) := by
  decide

/-- A ROM reads its contents (R33) until a write reaches it, after which no byte of it can be looked at (log entry 5). -/
theorem test_rom_write : let s := at_ 0x0100 [0x8D, 0x05, 0xE0] ({ start with platform := board, ac := 0x6B }.poke 0xE005 0x11);
    (s.peek 0xE005, (stepped s).peek 0xE005, (stepped s).peek 0x0101) = (some 0x11, none, some 0x05) := by
  decide

/-- A device read is a byte nothing constrains: Z and N follow it all the same (R45, log entry 3). -/
theorem test_device_read : ((ran (.ldaAbs 0x8002) { start with platform := board }).ac,
      flag (ran (.ldaAbs 0x8002) { start with platform := board }).sr .Z) =
    (Config.deviceAnswer 1 2 [], decide (Config.deviceAnswer 1 2 [] = 0x00)) ∧
    (ran (.ldaAbs 0x8002) { start with platform := board }).run = .running :=
  ⟨Prod.ext rfl ((setZN_reflects _ _).1), rfl⟩

/-- The host's entry: the word is stored where the next Step fetches, and that Step runs it. -/
theorem test_withFetchWord : (stepped (State.reset.withFetchWord 24 0x1234AD)).pc = 0x0003 ∧
    (State.reset.withFetchWord 24 0x1234AD).mem = [(0, 0xAD), (1, 0x34), (2, 0x12)] ∧
    (stepped (State.reset.withFetchWord 16 0x80A9)).ac = 0x80 := by
  decide

/-- The monitor is shown the state before the instruction (R170). -/
theorem test_monitor : let t := stepped (at_ 0x1000 [0xE8] { start with monitor := some [] });
    t.monitor = some [{ instr := .inx, opcode := 0xE8, pc := 0x1000, ac := 0x00, x := 0x00, y := 0x00, sp := 0x00, sr := 0x34,
                        run := .running, haltLatch := 0x00, faultRecord := none, platform := Config.ramPlatform,
                        mem := [(0x1000, 0xE8)], disturbed := [], bus := [rd 0x1000 0xE8], missed := [] }] ∧ t.x = 0x01 := by
  decide

/-! ## Witnesses: the hypotheses of each statement can be met -/

/-- On the RAM platform every address is mapped. -/
theorem ramPlatform_mapped (s : State) (h : s.platform = Config.ramPlatform) (a : Address) : s.mapped a = true := by
  have := a.isLt
  simp [State.mapped, route, h, Config.ramPlatform, routeIn]
  omega

theorem witness_DecodedBytesAreTheEncoding : decode [0x65, 0x10, 0xEA] = .ok (.adcZp 0x10, [0xEA]) := rfl

/-- LDA absolute across the top of the address space. -/
theorem witness_StepRunsTheDecodedInstruction :
    let s := at_ 0xFFFE [0xAD, 0x34, 0x12] start
    s.platform.wf = true ∧ s.run = .running ∧
    readBytes [(0xAD : Byte), 0x34, 0x12].length s.pc s = .ok [0xAD, 0x34, 0x12]
      { s with bus := [rd 0x0000 0x12, rd 0xFFFF 0x34, rd 0xFFFE 0xAD] } ∧
    decode [0xAD, 0x34, 0x12] = .ok (.ldaAbs 0x1234, []) ∧ (Instr.ldaAbs 0x1234).wf = true :=
  ⟨rfl, rfl, by decide, rfl, rfl⟩

theorem witness_IllegalOpcodeFaultsInDecode :
    let s := at_ 0xFFFF [0xFC] start
    s.platform.wf = true ∧ s.run = .running ∧
    route s.platform s.pc = some { backend := 0, kind := .ram, localAddr := 0xFFFF } ∧
    s.answer { backend := 0, kind := .ram, localAddr := 0xFFFF } ∈ illegalOpcodes ∧
    start.answer { backend := 0, kind := .ram, localAddr := 0 } ∈ illegalOpcodes := by
  decide

/-- The last clause: a state with the fault on record, and an instruction that leaves it there. -/
theorem witness_IllegalOpcodeFaultsInDecode_record :
    let r : FaultRecord := { fault := .illegalOpcode, pcInstr := some 0x1000, opcode := some 0x02 }
    let s : State := { start with faultRecord := some r }
    exec .nop s = .next s ∧ s.faultRecord = some r ∧ r.fault = .illegalOpcode :=
  ⟨rfl, rfl, rfl⟩

/-- The opcode, the operand byte and the second operand byte lie just above the RAM. -/
theorem witness_UnmappedFetchFaultsInDecode :
    let s := at_ 0x0200 [0xEA] { start with platform := lowRam 0x0200 }
    let t := at_ 0x01FF [0xA9] { start with platform := lowRam 0x0200 }
    let u := at_ 0x01FE [0xAD, 0x34] { start with platform := lowRam 0x0200 }
    (lowRam 0x0200).wf = true ∧ s.run = .running ∧ t.run = .running ∧ u.run = .running ∧
    route s.platform s.pc = none ∧
    route t.platform t.pc = some { backend := 0, kind := .ram, localAddr := 0x01FF } ∧
    (descriptor (t.answer { backend := 0, kind := .ram, localAddr := 0x01FF })).map Descriptor.length = some 2 ∧
    route t.platform (t.pc + 1) = none ∧
    route u.platform u.pc = some { backend := 0, kind := .ram, localAddr := 0x01FE } ∧
    (descriptor (u.answer { backend := 0, kind := .ram, localAddr := 0x01FE })).map Descriptor.length = some 3 ∧
    route u.platform (u.pc + 1) = some { backend := 0, kind := .ram, localAddr := 0x01FF } ∧
    route u.platform (u.pc + 1 + 1) = none := by
  decide

/-- A platform that is well formed and one that is not; each run state is that of some state. -/
theorem witness_NoStepOutsideRunning : start.platform.wf = true ∧ start.run = .running ∧
    ({ start with run := .halted } : State).run = .halted ∧ ({ start with run := .faulted } : State).run = .faulted ∧
    (hostStop start).run = .stopped ∧ (State.powerOn Config.ramPlatform [] 0 0 0 0 0 0 0 false).run = .awaitingReset ∧
    ({ start with platform := lowRam 0 } : State).platform.wf = false := by
  decide

theorem witness_MonitorSeesButDoesNotChange :
    let s := at_ 0x1000 [0xE8] { start with monitor := some [] }
    s.platform.wf = true ∧ s.run = .running ∧ s.monitor = some [] ∧
    readBytes [(0xE8 : Byte)].length s.pc s = .ok [0xE8] { s with bus := [rd 0x1000 0xE8] } ∧
    decode [0xE8] = .ok (.inx, []) :=
  ⟨rfl, rfl, rfl, by decide, rfl⟩

/-- A Step that writes to a ROM, from a state that meets the invariant. -/
theorem witness_StepKeepsTheInvariant :
    let s := at_ 0x0100 [0x8D, 0x05, 0xE0] { start with platform := board }
    s.Inv ∧ step s = .next (stepped s) ∧ (stepped s).disturbed = [2] :=
  ⟨⟨by decide, by decide, by decide, by decide⟩, rfl, by decide⟩

theorem witness_StepKeepsTheFixedBits :
    let s := at_ 0x1000 [0x69, 0x01] { start with ac := 0xFF }
    s.FixedBits ∧ step s = .next (stepped s) ∧ Reaches s (stepped s) :=
  ⟨⟨by decide, by decide, by decide, by decide⟩, rfl, .tail (.refl _) rfl⟩

/-- PLP does not exist, so ADC and CLC stand for the instructions that write SR; and a Reset that reads its vector. -/
theorem witness_NoInstructionWritesBreakUnusedOverflow :
    exec (.adcImm 0x01) start = .next (ran (.adcImm 0x01) start) ∧ exec .clc start = .next (ran .clc start) ∧
    hostReset start = .next (restarted start) ∧ (restarted start).run = .running :=
  ⟨rfl, rfl, rfl, by decide⟩

theorem witness_NoInstructionReadsTheUnreadFlags : Flag.D ∈ [Flag.I, .D, .B, .U, .V] := by decide

/-- NOP is in none of the lists, so every clause applies to it. -/
theorem witness_FlagsWrittenOnlyByTheirInstructions : exec .nop start = .next start ∧
    Instr.nop.mnemonic ∉ carryWriters ∧ Instr.nop.mnemonic ∉ znWriters ∧ Instr.nop.mnemonic ∉ [Mnemonic.CLI, .SEI] ∧
    Instr.nop.mnemonic ≠ .CLD :=
  ⟨rfl, by decide, by decide, by decide, by decide⟩

/-- A store is in none of the lists, so every clause applies to it. -/
theorem witness_RegistersWrittenOnlyByTheirInstructions : exec (.staZp 0x10) start = .next (ran (.staZp 0x10) start) ∧
    (Instr.staZp 0x10).mnemonic ∉ [.ADC, .SBC, .AND, .ORA, .EOR, .LDA, .PLA, .TXA, .TYA] ∧ (Instr.staZp 0x10).form ≠ .accumulator ∧
    (Instr.staZp 0x10).mnemonic ∉ [.LDX, .TAX, .INX, .DEX] ∧ (Instr.staZp 0x10).mnemonic ∉ [.LDY, .TAY, .INY, .DEY] ∧
    (Instr.staZp 0x10).mnemonic ∉ [.TXS, .PHA, .PLA, .JSR, .RTS] ∧
    (Instr.staZp 0x10).mnemonic ∉ [.BCC, .BCS, .BEQ, .BNE, .BMI, .BPL, .JMP, .JSR, .RTS] ∧ (Instr.staZp 0x10).mnemonic ≠ .HLT :=
  ⟨rfl, by decide, by decide, by decide, by decide, by decide, by decide, by decide⟩

theorem witness_MemoryWrittenOnlyByStoringInstructions :
    exec (.ldaZp 0x10) start = .next (ran (.ldaZp 0x10) start) ∧
    (Instr.ldaZp 0x10).mnemonic ∉ [.STA, .STX, .STY, .INC, .DEC, .ASL, .LSR, .ROL, .ROR, .PHA, .JSR] ∧
    exec .aslAcc start = .next (ran .aslAcc start) ∧ Instr.aslAcc.form = .accumulator :=
  ⟨rfl, by decide, rfl, rfl⟩

theorem witness_InstructionsKeepPlatformAndRunState : exec .hlt start = .next (ran .hlt start) ∧
    step (at_ 0x1000 [0xFF] start) = .next (stepped (at_ 0x1000 [0xFF] start)) :=
  ⟨rfl, rfl⟩

/-- A load, a pull and a JSR that end in FAULTED. -/
theorem witness_FaultInExecuteLeavesTheRest :
    let s : State := { start with platform := holed, sp := 0x01 }
    let v : State := { start with platform := holed, sp := 0xFF }
    s.run = .running ∧ v.run = .running ∧
    exec (.jsr 0x2000) s = .next (ran (.jsr 0x2000) s) ∧ (ran (.jsr 0x2000) s).run = .faulted ∧
    exec .pla v = .next (ran .pla v) ∧ (ran .pla v).run = .faulted ∧
    exec (.ldaAbs 0x0100) s = .next (ran (.ldaAbs 0x0100) s) ∧ (ran (.ldaAbs 0x0100) s).run = .faulted :=
  ⟨rfl, rfl, rfl, by decide, rfl, by decide, rfl, by decide⟩

theorem witness_IndirectXPageCrossFaults :
    let s := at_ 0x1000 [0xA1, 0xFE] { start with x := 0x01 }
    (Instr.ldaInx 0xFE).form = .memory (.indirectX 0xFE) ∧ ((0xFE : Byte).toNat + s.x.toNat) % 256 = 0xFF ∧
    s.platform.wf = true ∧ s.run = .running ∧
    readBytes [(0xA1 : Byte), 0xFE].length s.pc s = .ok [0xA1, 0xFE] { s with bus := [rd 0x1001 0xFE, rd 0x1000 0xA1] } ∧
    decode [0xA1, 0xFE] = .ok (.ldaInx 0xFE, []) ∧
    exec (.ldaInx 0xFE) s = .next (ran (.ldaInx 0xFE) s) ∧
    (ran (.ldaInx 0xFE) s).faultRecord = some { fault := .indirectXPageCross, pcInstr := none, opcode := none } ∧
    s.faultRecord ≠ some { fault := .indirectXPageCross, pcInstr := none, opcode := none } :=
  ⟨rfl, by decide, rfl, rfl, by decide, rfl, rfl, by decide, by decide⟩

/-- With X = 0xFF and operand 0xFF the pointer is at 0xFE, the last one that stays in page 0. -/
theorem witness_NoFaultWhenEveryAddressIsMapped :
    let s : State := { start with x := 0xFF }
    (∀ a, s.mapped a = true) ∧ ∀ n, (Instr.ldaInx 0xFF).form = .memory (.indirectX n) → n + s.x ≠ 0xFF := by
  refine ⟨ramPlatform_mapped _ rfl, fun n h => ?_⟩
  have h : Form.memory (.indirectX 0xFF) = .memory (.indirectX n) := h
  injection h with h
  injection h with h
  rw [← h]
  decide

/-- The first and the last address of a binding, and the addresses beside it. -/
theorem witness_FirstCoveringBindingIsUsed :
    (route board 0x8000).isSome = true ∧ (route board 0x800F).isSome = true ∧ route board 0x7FFF = none ∧
    route board 0x8010 = none := by
  decide

theorem witness_AccessIsDeliveredOnceOrFaults :
    route holed 0x0101 = some { backend := 1, kind := .ram, localAddr := 0 } ∧ route holed 0x0100 = none := by
  decide

/-- A write at 0x9005, seen at 0x0005, with 0x9006 another byte. -/
theorem witness_RamReadsTheByteLastWritten :
    let s : State := { start with platform := board }
    let p : Place := { backend := 0, kind := .ram, localAddr := 5 }
    Memory.wf s.mem = true ∧ route s.platform 0x9005 = some p ∧ p.kind = .ram ∧
    memWrite 0x9005 0x6B s = .ok () (s.writeDone 0x9005 p 0x6B) ∧
    route s.platform 0x0005 = some p ∧
    route s.platform 0x9006 = some { backend := 0, kind := .ram, localAddr := 6 } ∧ ¬ (0 = 0 ∧ 6 = 5) := by
  decide

theorem witness_Read16IsLittleEndian :
    (route halves 0x7FFF).isSome = true ∧ (route halves (BitVec.ofNat 16 (((0x7FFF : Address).toNat + 1) % 65536))).isSome = true ∧
    (route halves 0xFFFF).isSome = true ∧ (route halves (BitVec.ofNat 16 (((0xFFFF : Address).toNat + 1) % 65536))).isSome = true := by
  decide

theorem witness_DirectModesResolve : (Instr.ldxZpy 0x10).form.mode = .zeropageY ∧ (Instr.stxZpy 0x10).form.mode = .zeropageY := by
  decide

/-- The pointer at 0xFF; at 0xFE (the last in page 0) with both bytes mapped; with its first byte unmapped; with its second. -/
theorem witness_IndirectXResolves :
    0xFF = ((0xFE : Byte).toNat + (0x01 : Byte).toNat) % 256 ∧ 0xFE = ((0xFE : Byte).toNat + (0x00 : Byte).toNat) % 256 ∧
    (route (lowRam 0x100) (BitVec.ofNat 16 0xFE)).isSome = true ∧ (route (lowRam 0x100) (BitVec.ofNat 16 (0xFE + 1))).isSome = true ∧
    route (lowRam 0xFE) (BitVec.ofNat 16 0xFE) = none ∧
    (route (lowRam 0xFF) (BitVec.ofNat 16 0xFE)).isSome = true ∧ route (lowRam 0xFF) (BitVec.ofNat 16 (0xFE + 1)) = none := by
  decide

/-- The pointer at 0xFF with both bytes mapped, with its first byte unmapped, and with its second. -/
theorem witness_IndirectYResolves :
    (route (lowRam 0x101) (BitVec.ofNat 16 (0xFF : Byte).toNat)).isSome = true ∧
    (route (lowRam 0x101) (BitVec.ofNat 16 ((0xFF : Byte).toNat + 1))).isSome = true ∧
    route (lowRam 0xFF) (BitVec.ofNat 16 (0xFF : Byte).toNat) = none ∧
    (route holed (BitVec.ofNat 16 (0xFF : Byte).toNat)).isSome = true ∧
    route holed (BitVec.ofNat 16 ((0xFF : Byte).toNat + 1)) = none := by
  decide

theorem witness_OperandIsReadOnce :
    let s : State := { start with platform := holed, x := 0xFF }
    ea (.absoluteX 0x0002) s = .ok 0x0101 s ∧ (route s.platform 0x0101).isSome = true ∧
    ea (.absoluteX 0x0001) s = .ok 0x0100 s ∧ route s.platform 0x0100 = none := by
  decide

/-- For every read instruction of a mnemonic: an operand that is read, and one whose read faults. `i` and `j` are the two
instructions. -/
def readable (i j : Instr) (m : Mnemonic) (s : State) : Bool :=
  decide (i.mnemonic = m) && decide (j.mnemonic = m) &&
  (match i.form.source?, j.form.source? with
   | some a, some b =>
     (match operand a s with | .ok _ _ => true | .raised _ => false) && (match operand b s with | .ok _ _ => false | .raised _ => true)
   | _, _ => false)

theorem witness_AdcAddsWithCarry :
    readable (.adcIny 0xF0) (.adcAbs 0x0100) .ADC { start with platform := holed, ac := 0xFF, sr := 0x35 } = true := by
  decide

theorem witness_SbcSubtractsWithBorrow :
    readable (.sbcImm 0x00) (.sbcInx 0xFF) .SBC { start with platform := holed, sr := 0x34 } = true := by
  decide

theorem witness_LogicalInstructionsCombineBitwise :
    readable (.andZpx 0xFF) (.andAby 0x0100) .AND { start with platform := holed } = true ∧
    readable (.oraImm 0x80) (.oraAbx 0x0100) .ORA { start with platform := holed } = true ∧
    readable (.eorAbs 0x0101) (.eorIny 0xFF) .EOR { start with platform := holed } = true := by
  decide

theorem witness_ComparesSetFlagsOnly :
    readable (.cmpImm 0xFF) (.cmpAbs 0x0100) .CMP { start with platform := holed } = true ∧
    readable (.cpxZp 0x10) (.cpxAbs 0x0100) .CPX { start with platform := holed } = true ∧
    readable (.cpyAbs 0xFFFF) (.cpyAbs 0x0100) .CPY { start with platform := holed } = true ∧
    (Mnemonic.CPX, Reg.x) ∈ [(Mnemonic.CMP, Reg.ac), (.CPX, .x), (.CPY, .y)] := by
  decide

theorem witness_LoadsPutTheOperandInTheRegister :
    readable (.ldaInx 0x10) (.ldaAbs 0x0100) .LDA { start with platform := holed } = true ∧
    readable (.ldxZpy 0xFF) (.ldxAby 0x0100) .LDX { start with platform := holed } = true ∧
    readable (.ldyImm 0x00) (.ldyAbx 0x0100) .LDY { start with platform := holed } = true ∧
    (Mnemonic.LDY, Reg.y) ∈ [(Mnemonic.LDA, Reg.ac), (.LDX, .x), (.LDY, .y)] := by
  decide

/-- A store into RAM, one no binding covers, and one whose pointer faults. -/
theorem witness_StoresWriteTheRegister :
    let s : State := { start with platform := holed, x := 0x05 }
    (Mnemonic.STX, Reg.x) ∈ [(Mnemonic.STA, Reg.ac), (.STX, .x), (.STY, .y)] ∧
    (Instr.stxAbs 0x0101).form.memory? = some (.absolute 0x0101) ∧ ea (.absolute 0x0101) s = .ok 0x0101 s ∧
    route s.platform 0x0101 = some { backend := 1, kind := .ram, localAddr := 0 } ∧
    ea (.absolute 0x0100) s = .ok 0x0100 s ∧ route s.platform 0x0100 = none ∧
    (Mnemonic.STA, Reg.ac) ∈ [(Mnemonic.STA, Reg.ac), (.STX, .x), (.STY, .y)] ∧
    (Instr.staInx 0xFA).form.memory? = some (.indirectX 0xFA) ∧
    ea (.indirectX 0xFA) s = .raised (s.enterFault .indirectXPageCross) := by
  decide

theorem witness_IncDecCountTheByte :
    let s : State := { start with platform := holed, x := 0xFF }
    (Instr.incAbx 0x0002).mnemonic ∈ [.INC, .DEC] ∧ (Instr.incAbx 0x0002).form.memory? = some (.absoluteX 0x0002) ∧
    ea (.absoluteX 0x0002) s = .ok 0x0101 s ∧ (route s.platform 0x0101).isSome = true ∧
    (Instr.decAbs 0x0100).mnemonic ∈ [.INC, .DEC] ∧ (Instr.decAbs 0x0100).form.memory? = some (.absolute 0x0100) ∧
    ea (.absolute 0x0100) s = .ok 0x0100 s ∧ route s.platform 0x0100 = none := by
  decide

/-- The accumulator form. -/
theorem witness_ShiftsMoveOneBit_accumulator : Instr.rorAcc.form = .accumulator ∧
    shiftSpec Instr.rorAcc.mnemonic 0x01 true = some (0x80, true) ∧ Instr.aslAcc.form = .accumulator ∧
    shiftSpec Instr.aslAcc.mnemonic 0x80 true = some (0x00, true) := by
  decide

/-- The memory forms, mapped and not. -/
theorem witness_ShiftsMoveOneBit_memory :
    let s : State := { start with platform := holed }
    let p : Place := { backend := 1, kind := .ram, localAddr := 0 }
    (Instr.rolAbs 0x0101).mnemonic ∈ [.ASL, .LSR, .ROL, .ROR] ∧ (Instr.rolAbs 0x0101).form.memory? = some (.absolute 0x0101) ∧
    ea (.absolute 0x0101) s = .ok 0x0101 s ∧ route s.platform 0x0101 = some p ∧
    shiftSpec (Instr.rolAbs 0x0101).mnemonic (s.answer p) (flag s.sr .C) = some (0, false) ∧
    (Instr.lsrAbs 0x0100).form.memory? = some (.absolute 0x0100) ∧ ea (.absolute 0x0100) s = .ok 0x0100 s ∧
    route s.platform 0x0100 = none := by
  decide

theorem witness_IndexRegistersCount : (Instr.dey, Reg.y, 255, (0x88 : Byte)) ∈
    [(Instr.inx, Reg.x, 1, (0xE8 : Byte)), (.dex, .x, 255, 0xCA), (.iny, .y, 1, 0xC8), (.dey, .y, 255, 0x88)] := by
  decide

theorem witness_TransfersCopyAndSetFlags : (Instr.tya, Reg.y, Reg.ac, (0x98 : Byte)) ∈
    [(Instr.tax, Reg.ac, Reg.x, (0xAA : Byte)), (.tay, .ac, .y, 0xA8), (.txa, .x, .ac, 0x8A), (.tya, .y, .ac, 0x98)] := by
  decide

theorem witness_FlagInstructionsWriteOneBit : (Instr.sei, Flag.I, true, (0x78 : Byte)) ∈
    [(Instr.clc, Flag.C, false, (0x18 : Byte)), (.sec, .C, true, 0x38), (.cli, .I, false, 0x58), (.sei, .I, true, 0x78),
     (.cld, .D, false, 0xD8)] := by
  decide

theorem witness_NopOnlyAdvances :
    let s := at_ 0xFFFF [0xEA] start
    s.platform.wf = true ∧ s.run = .running ∧ s.monitor = none ∧ memRead s.pc s = .ok 0xEA { s with bus := [rd 0xFFFF 0xEA] } := by
  decide

theorem witness_HltEndsTheRun :
    let s := at_ 0xFFFF [0xFF] start
    s.platform.wf = true ∧ s.run = .running ∧ s.monitor = none ∧ memRead s.pc s = .ok 0xFF { s with bus := [rd 0xFFFF 0xFF] } := by
  decide

theorem witness_JmpSetsPc : (Instr.jmp 0x9000).mnemonic = .JMP := rfl

theorem witness_BranchesMovePcOnTheirCondition : (Instr.bmi 0x80).form = .relative 0x80 ∧ (Instr.bcc 0x7F).form = .relative 0x7F := by
  decide

/-- SP = 00 wraps to 0x01FF for the low byte; SP = 00 with 0x0100 unmapped; SP = 01 with 0x0100 unmapped. -/
theorem witness_JsrPushesTheReturnAddress :
    0xFFFF = ((0x0000 : Address).toNat + 65535) % 65536 ∧
    (0x0100 : Address) = BitVec.ofNat 16 (0x0100 + (0x00 : Byte).toNat) ∧
    (0x01FF : Address) = BitVec.ofNat 16 (0x0100 + ((0x00 : Byte).toNat + 255) % 256) ∧
    (route Config.ramPlatform 0x0100).isSome = true ∧ (route Config.ramPlatform 0x01FF).isSome = true ∧
    route holed 0x0100 = none ∧
    (0x0101 : Address) = BitVec.ofNat 16 (0x0100 + (0x01 : Byte).toNat) ∧
    (0x0100 : Address) = BitVec.ofNat 16 (0x0100 + ((0x01 : Byte).toNat + 255) % 256) ∧ (route holed 0x0101).isSome = true := by
  decide

/-- SP = FE reads 0x01FF and then 0x0100; SP = FF reads 0x0100 first. -/
theorem witness_RtsPullsTheReturnAddress :
    (0x01FF : Address) = BitVec.ofNat 16 (0x0100 + ((0xFE : Byte).toNat + 1) % 256) ∧
    (0x0100 : Address) = BitVec.ofNat 16 (0x0100 + ((0xFE : Byte).toNat + 2) % 256) ∧
    (route Config.ramPlatform 0x01FF).isSome = true ∧ (route Config.ramPlatform 0x0100).isSome = true ∧
    (route holed 0x01FF).isSome = true ∧ route holed 0x0100 = none ∧
    (0x0100 : Address) = BitVec.ofNat 16 (0x0100 + ((0xFF : Byte).toNat + 1) % 256) ∧
    (0x0101 : Address) = BitVec.ofNat 16 (0x0100 + ((0xFF : Byte).toNat + 2) % 256) := by
  decide

theorem witness_RtsReturnsAfterJsr :
    let s : State := { start with pc := 0x1003 }
    let p : Place := { backend := 0, kind := .ram, localAddr := 0x0100 }
    let q : Place := { backend := 0, kind := .ram, localAddr := 0x01FF }
    Memory.wf s.mem = true ∧ route s.platform (stackAddr s.sp) = some p ∧ route s.platform (stackAddr (s.sp - 1)) = some q ∧
    p.kind = .ram ∧ q.kind = .ram ∧ ¬ (p.backend = q.backend ∧ p.localAddr = q.localAddr) ∧
    exec (.jsr 0x9000) s = .next (ran (.jsr 0x9000) s) :=
  ⟨rfl, rfl, rfl, rfl, rfl, by decide, rfl⟩

theorem witness_PhaPushesTheAccumulator :
    (0x01FF : Address) = BitVec.ofNat 16 (0x0100 + (0xFF : Byte).toNat) ∧ (route holed 0x01FF).isSome = true ∧
    (0x0100 : Address) = BitVec.ofNat 16 (0x0100 + (0x00 : Byte).toNat) ∧ route holed 0x0100 = none := by
  decide

theorem witness_PlaPullsTheAccumulator :
    (0x01FF : Address) = BitVec.ofNat 16 (0x0100 + ((0xFE : Byte).toNat + 1) % 256) ∧ (route holed 0x01FF).isSome = true ∧
    (0x0100 : Address) = BitVec.ofNat 16 (0x0100 + ((0xFF : Byte).toNat + 1) % 256) ∧ route holed 0x0100 = none := by
  decide

/-- Both vector bytes mapped; the low one not; the low one mapped and the high one not. -/
theorem witness_ResetLoadsTheVector :
    start.platform.wf = true ∧ start.latch = .empty ∧
    (route Config.ramPlatform 0xFFFC).isSome = true ∧ (route Config.ramPlatform 0xFFFD).isSome = true ∧
    (lowRam 0xFFFC).wf = true ∧ route (lowRam 0xFFFC) 0xFFFC = none ∧
    (lowRam 0xFFFD).wf = true ∧ (route (lowRam 0xFFFD) 0xFFFC).isSome = true ∧ route (lowRam 0xFFFD) 0xFFFD = none := by
  decide

theorem witness_HostStopEndsTheRun : start.platform.wf = true ∧ start.run = .running ∧ ∀ a, start.mapped a = true :=
  ⟨rfl, rfl, ramPlatform_mapped _ rfl⟩

end Sys2Proof.Tests
end

section
/-! PROOFS. The bus (20_memory.md): the look-up of R32 and R36 as the first covering binding, and what one access does (R33 to
R35). -/

namespace Sys2Proof.Machine

/-! ## The look-up, binding by binding -/

/-- A binding without a backend covers nothing: its size is 0. -/
theorem Covers.exists_backend {pl : Platform} {b : Binding} {a : Address} (h : Covers pl b a) :
    ∃ k, pl.backends[b.backend]? = some k ∧ b.base.toNat ≤ a.toNat ∧ a.toNat < b.base.toNat + k.size := by
  unfold Covers Platform.sizeOf at h
  cases hk : pl.backends[b.backend]? with
  | none => simp only [hk] at h; omega
  | some k => exact ⟨k, rfl, by simpa only [hk] using h⟩

theorem covers_iff_of_backend {pl : Platform} {b : Binding} {a : Address} {k : Backend}
    (hk : pl.backends[b.backend]? = some k) :
    Covers pl b a ↔ b.base.toNat ≤ a.toNat ∧ a.toNat < b.base.toNat + k.size := by
  simp only [Covers, Platform.sizeOf, hk]

theorem routeIn_cons_of_covers {pl : Platform} {b : Binding} {a : Address} {k : Backend} (rest : List Binding)
    (hk : pl.backends[b.backend]? = some k) (hc : Covers pl b a) :
    routeIn pl.backends (b :: rest) a =
      some { backend := b.backend, kind := k.kind, localAddr := a.toNat - b.base.toNat } := by
  simp only [routeIn, hk, if_pos ((covers_iff_of_backend hk).1 hc)]

theorem routeIn_cons_of_not_covers {pl : Platform} {b : Binding} {a : Address} (rest : List Binding)
    (hc : ¬ Covers pl b a) : routeIn pl.backends (b :: rest) a = routeIn pl.backends rest a := by
  cases hk : pl.backends[b.backend]? with
  | none => simp only [routeIn, hk]
  | some k => simp only [routeIn, hk, if_neg (mt (covers_iff_of_backend hk).2 hc)]

/-- Bindings that do not cover the address are passed over. -/
theorem routeIn_append_of_not_covers {pl : Platform} {a : Address} {before : List Binding} (rest : List Binding)
    (h : ∀ c ∈ before, ¬ Covers pl c a) : routeIn pl.backends (before ++ rest) a = routeIn pl.backends rest a := by
  induction before with
  | nil => rfl
  | cons c before ih =>
    obtain ⟨hc, hbefore⟩ := List.forall_mem_cons.1 h
    rw [List.cons_append, routeIn_cons_of_not_covers _ hc, ih hbefore]

/-! ## The look-up in a platform -/

theorem route_of_first_covering {pl : Platform} {a : Address} {before after : List Binding} {b : Binding} {k : Backend}
    (hl : pl.bindings = before ++ b :: after) (hbefore : ∀ c ∈ before, ¬ Covers pl c a) (hc : Covers pl b a)
    (hk : pl.backends[b.backend]? = some k) :
    route pl a = some { backend := b.backend, kind := k.kind, localAddr := a.toNat - b.base.toNat } := by
  rw [route, hl, routeIn_append_of_not_covers _ hbefore, routeIn_cons_of_covers _ hk hc]

theorem route_of_no_covering {pl : Platform} {a : Address} (h : ∀ b ∈ pl.bindings, ¬ Covers pl b a) : route pl a = none := by
  have hall := routeIn_append_of_not_covers [] h
  rwa [List.append_nil] at hall

/-- A covered address has a first covering binding. -/
theorem exists_first_covering {pl : Platform} {a : Address} (h : ∃ b ∈ pl.bindings, Covers pl b a) :
    ∃ before b after, pl.bindings = before ++ b :: after ∧ (∀ c ∈ before, ¬ Covers pl c a) ∧ Covers pl b a := by
  classical
  obtain ⟨b, hb⟩ := Option.isSome_iff_exists.1 (List.find?_isSome (p := fun b => decide (Covers pl b a)).2 (by simpa using h))
  obtain ⟨hc, before, after, hl, hbefore⟩ := List.find?_eq_some_iff_append.1 hb
  exact ⟨before, b, after, hl, by simpa using hbefore, by simpa using hc⟩

/-- Everything the look-up can do: the first covering binding takes the address, or none covers it. -/
theorem route_cases (pl : Platform) (a : Address) :
    (∃ before b after k, pl.bindings = before ++ b :: after ∧ (∀ c ∈ before, ¬ Covers pl c a) ∧ Covers pl b a ∧
      pl.backends[b.backend]? = some k ∧ a.toNat - b.base.toNat < k.size ∧
      route pl a = some { backend := b.backend, kind := k.kind, localAddr := a.toNat - b.base.toNat }) ∨
    ((∀ b ∈ pl.bindings, ¬ Covers pl b a) ∧ route pl a = none) := by
  by_cases h : ∃ b ∈ pl.bindings, Covers pl b a
  · obtain ⟨before, b, after, hl, hbefore, hc⟩ := exists_first_covering h
    obtain ⟨k, hk, hbase, hend⟩ := hc.exists_backend
    exact .inl ⟨before, b, after, k, hl, hbefore, hc, hk, by omega, route_of_first_covering hl hbefore hc hk⟩
  · have hnone : ∀ b ∈ pl.bindings, ¬ Covers pl b a := fun b hb hc => h ⟨b, hb, hc⟩
    exact .inr ⟨hnone, route_of_no_covering hnone⟩

theorem route_eq_none_iff {pl : Platform} {a : Address} : route pl a = none ↔ ∀ b ∈ pl.bindings, ¬ Covers pl b a := by
  refine ⟨fun h => ?_, route_of_no_covering⟩
  obtain ⟨_, _, _, _, -, -, -, -, -, hsome⟩ | ⟨hnone, -⟩ := route_cases pl a
  · simp [hsome] at h
  · exact hnone

/-- Settles O23: the scan passes over the bindings that do not cover the address and stops at the first that does. -/
theorem firstCoveringBindingIsUsed : Obligations.FirstCoveringBindingIsUsed := by
  refine ⟨fun pl a p => ⟨fun h => ?_, ?_⟩, fun pl a => route_eq_none_iff⟩
  · obtain ⟨before, b, after, k, hl, hbefore, hc, hk, hlt, hsome⟩ | ⟨-, hnone⟩ := route_cases pl a
    · obtain rfl := Option.some.inj (h.symm.trans hsome)
      exact ⟨before, b, after, k, hl, hbefore, hc, hk, rfl, hlt⟩
    · simp [hnone] at h
  · rintro ⟨before, b, after, k, hl, hbefore, hc, hk, rfl, -⟩
    exact route_of_first_covering hl hbefore hc hk

/-! ## One access -/

/-- A delivered write changes nothing but memory, the disturbed ROMs and the bus, where it stands once. -/
theorem State.writeDone_eq (s : State) (a : Address) (p : Place) (v : Byte) :
    s.writeDone a p v =
      { s with
        mem := (s.writeDone a p v).mem
        disturbed := (s.writeDone a p v).disturbed
        bus := .write a p.backend p.localAddr v :: s.bus } := by
  cases h : p.kind <;> simp [State.writeDone, h]

theorem State.enterFault_endsFaulted (s : State) (c : Cause) : EndsFaulted s (s.enterFault c) c := rfl

/-- Settles O24: a covered address by what a delivered read and write leave, an uncovered one by fault entry. -/
theorem accessIsDeliveredOnceOrFaults : Obligations.AccessIsDeliveredOnceOrFaults := by
  intro s a v
  constructor
  · intro p hp
    exact ⟨memRead_of_route hp, _, memWrite_of_route v hp, s.writeDone_eq a p v⟩
  · intro hmiss
    exact ⟨⟨_, memRead_of_unmapped hmiss, s.enterFault_endsFaulted _, s.enterFault_bus _⟩,
      _, memWrite_of_unmapped v hmiss, s.enterFault_endsFaulted _, s.enterFault_bus _⟩

end Sys2Proof.Machine
end

section
/-! PROOFS. The address-mode resolver (30_encoding.md R65 to R72): the direct modes in numbers, and the pointer of the two
indirect modes, byte by byte. -/

namespace Sys2Proof.Machine

/-! ## Bytes as addresses -/

theorem ofNat_toNat_eq_zext16 (v : Byte) : BitVec.ofNat 16 v.toNat = zext16 v := BitVec.ofNat_toNat 16 v

theorem ofNat_toNat_add_one_eq_zext16 (v : Byte) : BitVec.ofNat 16 (v.toNat + 1) = zext16 v + 1 := by
  rw [BitVec.ofNat_add, ofNat_toNat_eq_zext16]
  rfl

theorem toNat_zext16 (v : Byte) : (zext16 v).toNat = v.toNat := by
  have := v.isLt
  simp only [zext16, BitVec.toNat_setWidth]
  omega

/-- A zero-page sum wraps inside page 0 (R66, R67). -/
theorem zext16_add (n v : Byte) : zext16 (n + v) = BitVec.ofNat 16 ((n.toNat + v.toNat) % 256) :=
  (ofNat_toNat_eq_zext16 (n + v)).symm

/-- An indexed address wraps modulo 65536 (R69, R70, R72). -/
theorem toNat_add_zext16 (w : Address) (v : Byte) : (w + zext16 v).toNat = (w.toNat + v.toNat) % 65536 := by
  rw [BitVec.toNat_add, toNat_zext16]

theorem add_zext16 (w : Address) (v : Byte) : w + zext16 v = BitVec.ofNat 16 ((w.toNat + v.toNat) % 65536) := by
  rw [← toNat_add_zext16, BitVec.ofNat_toNat, BitVec.setWidth_eq]

/-! ## The two reads of a pointer -/

/-- The high byte of a covered word is the byte `peek` shows there, where it shows one: the read of the low byte changes no
stored byte. -/
theorem memRead16_of_covered {s : State} {a : Address} {p q : Place} (hp : route s.platform a = some p)
    (hq : route s.platform (a + 1) = some q) :
    ∃ h, memRead16 a s = .ok (join h (s.answer p))
        { s with bus := .read (a + 1) q.backend q.localAddr h :: .read a p.backend p.localAddr (s.answer p) :: s.bus } ∧
      ∀ v, s.peek (a + 1) = some v → h = v := by
  refine ⟨(s.readDone a p).answer q, memRead16_of_route hp hq, fun v hv => ?_⟩
  have hpeek : (s.readDone a p).peek (a + 1) = s.peek (a + 1) := State.peek_congr rfl rfl rfl _
  exact State.answer_of_peek (s := s.readDone a p) hq (hpeek.trans hv)

theorem memRead16_of_low_unmapped {s : State} {a : Address} (h : route s.platform a = none) :
    memRead16 a s = .raised (s.enterFault (.busFault (.read a))) := by
  rw [memRead16, memRead_of_unmapped h, Res.raised_andThen]

theorem memRead16_of_high_unmapped {s : State} {a : Address} {p : Place} (hp : route s.platform a = some p)
    (hq : route s.platform (a + 1) = none) :
    memRead16 a s = .raised ((s.readDone a p).enterFault (.busFault (.read (a + 1)))) := by
  have hq' : route (s.readDone a p).platform (a + 1) = none := hq
  rw [memRead16, memRead_of_route hp, Res.ok_andThen, memRead_of_unmapped hq', Res.raised_andThen]

/-- A fault entered after bus accesses alone leaves what `EndsFaulted` says. -/
theorem SameButBus.enterFault_endsFaulted {s t : State} (h : SameButBus s t) (c : Cause) :
    EndsFaulted s (t.enterFault c) c := by
  obtain ⟨b, rfl⟩ : ∃ b, t = { s with bus := b } := ⟨t.bus, h⟩
  rfl

/-! ## The indirect modes -/

theorem ea_indirectX_of_pageCross {n : Byte} {s : State} (h : n + s.x = 0xFF) :
    ea (.indirectX n) s = .raised (s.enterFault .indirectXPageCross) := by
  rw [ea, if_pos h, raise_eq]

theorem ea_indirectX_of_ne {n : Byte} {s : State} (h : n + s.x ≠ 0xFF) :
    ea (.indirectX n) s = memRead16 (zext16 (n + s.x)) s := by
  rw [ea, if_neg h]

theorem ea_indirectY (n : Byte) (s : State) :
    ea (.indirectY n) s = (memRead16 (zext16 n) s).andThen fun base t => .ok (base + zext16 t.y) t := rfl

/-- Settles O28: the pointer's address as a byte sum, and then the one check of R71 and the two reads of R37. -/
theorem indirectXResolves : Obligations.IndirectXResolves := by
  intro s n zp hzp
  obtain rfl : zp = (n + s.x).toNat := hzp
  rw [ofNat_toNat_eq_zext16, ofNat_toNat_add_one_eq_zext16]
  have hff : (n + s.x).toNat = 0xFF ↔ n + s.x = 0xFF := BitVec.toNat_inj (y := 0xFF)
  rw [Ne, hff]
  refine ⟨fun h => ?_, fun h p q hp hq => ?_, fun h hp => ?_, fun h p hp hq => ?_⟩
  · exact ⟨_, ea_indirectX_of_pageCross h, s.enterFault_endsFaulted _, s.enterFault_bus _⟩
  · obtain ⟨v, hread, hpeek⟩ := memRead16_of_covered hp hq
    exact ⟨_, _, v, (ea_indirectX_of_ne h).trans hread, toNat_join v _, rfl, hpeek⟩
  · exact ⟨_, (ea_indirectX_of_ne h).trans (memRead16_of_low_unmapped hp), s.enterFault_endsFaulted _, s.enterFault_bus _⟩
  · exact ⟨_, (ea_indirectX_of_ne h).trans (memRead16_of_high_unmapped hp hq),
      (SameButBus.readDone s _ p).enterFault_endsFaulted _, (s.readDone _ p).enterFault_bus _⟩

/-- Settles O29: the two reads of R37 at the zero-extended operand, whose successor may lie in page 1, and then Y. -/
theorem indirectYResolves : Obligations.IndirectYResolves := by
  rintro s n l h rfl rfl
  rw [ofNat_toNat_eq_zext16, ofNat_toNat_add_one_eq_zext16, ea_indirectY]
  refine ⟨fun p q hp hq => ?_, fun hp => ?_, fun p hp hq => ?_⟩
  · obtain ⟨v, hread, hpeek⟩ := memRead16_of_covered hp hq
    rw [hread, Res.ok_andThen]
    exact ⟨_, _, v, rfl, by rw [toNat_add_zext16, toNat_join], rfl, hpeek⟩
  · rw [memRead16_of_low_unmapped hp, Res.raised_andThen]
    exact ⟨_, rfl, s.enterFault_endsFaulted _, s.enterFault_bus _⟩
  · rw [memRead16_of_high_unmapped hp hq, Res.raised_andThen]
    exact ⟨_, rfl, (SameButBus.readDone s _ p).enterFault_endsFaulted _, (s.readDone _ p).enterFault_bus _⟩

/-! ## The direct modes -/

/-- Of all instructions only LDX and STX have the mode zeropage,Y (R67). -/
theorem mnemonic_of_zeropageY {i : Instr} (h : i.form.mode = .zeropageY) : i.mnemonic ∈ [Mnemonic.LDX, .STX] := by
  cases i with
  | ldxZpy _ => exact List.mem_cons_self
  | stxZpy _ => exact List.mem_cons_of_mem _ List.mem_cons_self
  | _ => cases h

/-- Settles O27: each mode's address in numbers; the resolver hands the state back. -/
theorem directModesResolve : Obligations.DirectModesResolve := by
  intro s n w
  rw [ofNat_toNat_eq_zext16, ← zext16_add, ← zext16_add, ← add_zext16, ← add_zext16]
  exact ⟨rfl, rfl, rfl, rfl, rfl, rfl, fun _ => mnemonic_of_zeropageY⟩

end Sys2Proof.Machine
end

section
/-! PROOFS. Arithmetic (40_arithmetic.md R80, R81): how an instruction that reads its operand ends, and what ADC and SBC write. -/

namespace Sys2Proof.Machine

/-! ## An instruction that reads its operand -/

theorem readThen_of_ok {src : Source} {s t : State} {m : Byte} (act : Byte → State → State)
    (h : operand src s = .ok m t) : readThen src act s = .next (act m t) := by
  rw [readThen, h, Res.ok_andThen, Res.ok_outcome]

theorem readThen_of_raised {src : Source} {s t : State} (act : Byte → State → State)
    (h : operand src s = .raised t) : readThen src act s = .next t := by
  rw [readThen, h, Res.raised_andThen, Res.raised_outcome]

theorem mode_of_source_memory {fm : Form} {f : MemForm} (h : fm.source? = some (.memory f)) : fm.mode = f.mode := by
  cases fm with
  | memory g => cases h; rfl
  | _ => cases h

/-- A fault of the operand is one of the two an instruction that only reads can raise, and leaves fault entry (R74, R160). -/
theorem operand_raised {i : Instr} {src : Source} {s t : State} (hf : i.form.source? = some src)
    (h : operand src s = .raised t) : ∃ c, EndsFaulted s t c ∧ IsReadFault i c := by
  cases src with
  | immediate n => cases h
  | memory f =>
    obtain hea | ⟨a, u, hea, hread⟩ := Res.andThen_eq_raised.1 h
    · obtain ⟨u, hu, ⟨b, rfl⟩ | ⟨rfl, n, rfl⟩⟩ := ea_raised hea
      · exact ⟨_, hu.enterFault_endsFaulted _, .inl ⟨b, rfl⟩⟩
      · exact ⟨_, hu.enterFault_endsFaulted _, .inr ⟨rfl, mode_of_source_memory hf⟩⟩
    · obtain rfl := memRead_raised hread
      exact ⟨_, (ea_sameButBus hea).enterFault_endsFaulted _, .inl ⟨a, rfl⟩⟩

/-! ## The common end of ADC and SBC -/

/-- AC takes the result `r`, C the carry `c`, and Z and N reflect `r`: what ADC and SBC do once both are computed. -/
def takeResult (r : Byte) (c : Bool) (s : State) : State := setZN r ((s.setFlag .C c).setReg .ac r)

/-- ADC after its operand was read: the sum is that of the state before the read, which moved the bus alone. -/
theorem adc_eq_takeResult {s t : State} (h : SameButBus s t) (m : Byte) :
    adc m t = takeResult (BitVec.ofNat 8 (adcSum s.ac m (flag s.sr .C))) ((adcSum s.ac m (flag s.sr .C)).testBit 8) t := by
  rw [h]
  rfl

/-- SBC after its operand was read: the difference is that of the state before the read, which moved the bus alone. -/
theorem sbc_eq_takeResult {s t : State} (h : SameButBus s t) (m : Byte) :
    sbc m t = takeResult (BitVec.ofInt 8 (sbcDiff s.ac m (flag s.sr .C))) (decide (0 ≤ sbcDiff s.ac m (flag s.sr .C))) t := by
  rw [h]
  rfl

theorem takeResult_flag_C (r : Byte) (c : Bool) (s : State) : flag (takeResult r c s).sr .C = c := by
  simp [takeResult]

theorem takeResult_reflectsZN (r : Byte) (c : Bool) (s : State) : ReflectsZN (takeResult r c s).sr r := setZN_reflects r _

theorem takeResult_flagsKept (r : Byte) (c : Bool) (s : State) : FlagsKept [.C, .Z, .N] s.sr (takeResult r c s).sr := by
  intro f hf
  obtain ⟨hc, hz, hn⟩ : f ≠ .C ∧ f ≠ .Z ∧ f ≠ .N := by simpa using hf
  rw [takeResult, setZN_flag _ _ hz hn, State.setReg_ac_sr, State.setFlag_sr, flag_putFlag, if_neg hc]

theorem takeResult_eq (r : Byte) (c : Bool) (s : State) :
    takeResult r c s = { s with ac := r, sr := (takeResult r c s).sr } := rfl

/-- An instruction that reads its operand and then takes a result: what R80 and R81 say of AC, the flags and everything else. -/
theorem exec_next_takeResult {i : Instr} {src : Source} {act : Byte → State → State} {s t : State} {m r : Byte} {c : Bool}
    (he : exec i s = readThen src act s) (ho : operand src s = .ok m t) (ha : act m t = takeResult r c t) :
    ∃ u, exec i s = .next u ∧ u.ac = r ∧ flag u.sr .C = c ∧ ReflectsZN u.sr u.ac ∧ FlagsKept [.C, .Z, .N] s.sr u.sr ∧
      u = { s with ac := u.ac, sr := u.sr, bus := t.bus } := by
  refine ⟨takeResult r c t, by rw [he, readThen_of_ok act ho, ha], ?_⟩
  obtain ⟨b, rfl⟩ : ∃ b, t = { s with bus := b } := ⟨t.bus, operand_sameButBus ho⟩
  exact ⟨rfl, takeResult_flag_C r c _, takeResult_reflectsZN r c _, takeResult_flagsKept r c _, takeResult_eq r c _⟩

/-! ## The sum and the difference in numbers -/

theorem toNat_ofNat_adcSum (a m : Byte) (c : Bool) :
    (BitVec.ofNat 8 (adcSum a m c)).toNat = (a.toNat + m.toNat + c.toNat) % 256 := BitVec.toNat_ofNat _ 8

/-- Bit 8 of the 9-bit sum: the sum stays below 512. -/
theorem testBit_adcSum (a m : Byte) (c : Bool) :
    (adcSum a m c).testBit 8 = decide (256 ≤ a.toNat + m.toNat + c.toNat) := by
  have ha := a.isLt
  have hm := m.isLt
  have hc := c.toNat_le
  rw [Nat.testBit_eq_decide_div_mod_eq, adcSum, decide_eq_decide]
  omega

theorem toNat_ofInt_sbcDiff (a m : Byte) (c : Bool) :
    ((BitVec.ofInt 8 (sbcDiff a m c)).toNat : Int) = ((a.toNat : Int) - m.toNat - (1 - c.toNat)) % 256 := by
  rw [BitVec.toNat_ofInt]
  exact Int.toNat_of_nonneg (Int.emod_nonneg _ (by decide))

/-! ## ADC and SBC in their eight modes -/

/-- Settles O31: the operand is read, and then AC and C take the 9-bit sum. -/
theorem adcAddsWithCarry : Obligations.AdcAddsWithCarry := by
  intro i src s hm hf
  have he := exec_adc hm hf s
  refine ⟨?_, fun m t ho => ?_, fun t ho => ⟨he.trans (readThen_of_raised adc ho), operand_raised hf ho⟩⟩
  · cases i with
    | adcImm _ | adcZp _ | adcZpx _ | adcAbs _ | adcAbx _ | adcAby _ | adcInx _ | adcIny _ =>
      simp [Instr.form, Form.mode, MemForm.mode, Instr.opcode]
    | _ => cases hm
  · obtain ⟨u, hu, hac, hc, hrest⟩ := exec_next_takeResult he ho (adc_eq_takeResult (operand_sameButBus ho) m)
    exact ⟨u, hu, by rw [hac, toNat_ofNat_adcSum], by rw [hc, testBit_adcSum], hrest⟩

/-- Settles O32: the operand is read, and then AC and C take the signed difference. -/
theorem sbcSubtractsWithBorrow : Obligations.SbcSubtractsWithBorrow := by
  intro i src s hm hf
  have he := exec_sbc hm hf s
  refine ⟨?_, fun m t ho => ?_, fun t ho => ⟨he.trans (readThen_of_raised sbc ho), operand_raised hf ho⟩⟩
  · cases i with
    | sbcImm _ | sbcZp _ | sbcZpx _ | sbcAbs _ | sbcAbx _ | sbcAby _ | sbcInx _ | sbcIny _ =>
      simp [Instr.form, Form.mode, MemForm.mode, Instr.opcode]
    | _ => cases hm
  · obtain ⟨u, hu, hac, hc, hrest⟩ := exec_next_takeResult he ho (sbc_eq_takeResult (operand_sameButBus ho) m)
    exact ⟨u, hu, by rw [hac, toNat_ofInt_sbcDiff], hc, hrest⟩

end Sys2Proof.Machine
end

section
/-! PROOFS. Logic (41_logical.md R85 to R87): what an instruction that puts a byte in a register leaves, and the three operators
bit by bit. -/

namespace Sys2Proof.Machine

/-! ## A register takes a byte -/

theorem setZN_flagsKept (v : Byte) (s : State) : FlagsKept [.Z, .N] s.sr (setZN v s).sr := by
  intro f hf
  obtain ⟨hz, hn⟩ : f ≠ .Z ∧ f ≠ .N := by simpa using hf
  exact setZN_flag v s hz hn

theorem putReg_reflectsZN (r : Reg) (v : Byte) (s : State) : ReflectsZN (putReg r v s).sr v := setZN_reflects v _

theorem putReg_flagsKept (r : Reg) (v : Byte) (s : State) : FlagsKept [.Z, .N] s.sr (putReg r v s).sr := by
  have h := setZN_flagsKept v (s.setReg r v)
  rwa [State.setReg_sr] at h

/-- A register takes a byte: Z and N move with it, and nothing else does. -/
theorem putReg_eq (r : Reg) (v : Byte) (s : State) : putReg r v s = { s.setReg r v with sr := (putReg r v s).sr } := rfl

/-- An instruction that reads its operand and then puts a byte in a register: the state it leaves, in terms of the state before
the read, which moved the bus alone. -/
theorem exec_next_putReg {i : Instr} {src : Source} {act : Byte → State → State} {s t : State} {r : Reg} {m v : Byte}
    (he : exec i s = readThen src act s) (ho : operand src s = .ok m t) (ha : act m t = putReg r v t) :
    ∃ u, exec i s = .next u ∧ ReflectsZN u.sr v ∧ FlagsKept [.Z, .N] s.sr u.sr ∧
      u = { s.setReg r v with sr := u.sr, bus := t.bus } := by
  refine ⟨putReg r v t, by rw [he, readThen_of_ok act ho, ha], putReg_reflectsZN r v t, ?_⟩
  obtain ⟨b, rfl⟩ : ∃ b, t = { s with bus := b } := ⟨t.bus, operand_sameButBus ho⟩
  exact ⟨putReg_flagsKept r v _, by cases r <;> rfl⟩

/-! ## AND, ORA and EOR in their eight modes -/

/-- One bit of the result of AND, ORA or EOR (R85 to R87), from that bit of AC and of the operand. -/
def logicBit (mn : Mnemonic) (a m : Bool) : Bool :=
  if mn = .AND then a && m else if mn = .ORA then a || m else xor a m

/-- After its operand was read a logical instruction puts the combination in AC; the AC combined is that of the state before the
read, which moved the bus alone. -/
theorem logic_eq_putReg {s t : State} (h : SameButBus s t) (op : Byte → Byte → Byte) (m : Byte) :
    logic op m t = putReg .ac (op s.ac m) t := by
  rw [h]
  rfl

/-- The logical instructions share one meaning; its operator is the mnemonic's, bit by bit. -/
theorem exec_logic {i : Instr} {src : Source} (hm : i.mnemonic ∈ [.AND, .ORA, .EOR]) (hf : i.form.source? = some src)
    (s : State) :
    ∃ op : Byte → Byte → Byte, exec i s = readThen src (logic op) s ∧
      ∀ a m k, (op a m).getLsbD k = logicBit i.mnemonic (a.getLsbD k) (m.getLsbD k) := by
  obtain hm | hm | hm : i.mnemonic = .AND ∨ i.mnemonic = .ORA ∨ i.mnemonic = .EOR := by simpa using hm
  all_goals rw [hm]
  · exact ⟨_, exec_and hm hf s, fun _ _ _ => BitVec.getLsbD_and⟩
  · exact ⟨_, exec_ora hm hf s, fun _ _ _ => BitVec.getLsbD_or⟩
  · exact ⟨_, exec_eor hm hf s, fun _ _ _ => BitVec.getLsbD_xor⟩

/-- Settles O34: the operand is read, and then AC takes the combination, and Z and N reflect it. -/
theorem logicalInstructionsCombineBitwise : Obligations.LogicalInstructionsCombineBitwise := by
  intro i src s hm hf
  obtain ⟨op, he, hop⟩ := exec_logic hm hf s
  refine ⟨?_, fun m t ho => ?_, fun t ho => ⟨he.trans (readThen_of_raised _ ho), operand_raised hf ho⟩⟩
  · cases i with
    | andImm _ | andZp _ | andZpx _ | andAbs _ | andAbx _ | andAby _ | andInx _ | andIny _
    | oraImm _ | oraZp _ | oraZpx _ | oraAbs _ | oraAbx _ | oraAby _ | oraInx _ | oraIny _
    | eorImm _ | eorZp _ | eorZpx _ | eorAbs _ | eorAbx _ | eorAby _ | eorInx _ | eorIny _ =>
      simp [Instr.mnemonic, Instr.form, Form.mode, MemForm.mode, Instr.opcode]
    | _ => simp [Instr.mnemonic] at hm
  · obtain ⟨u, hu, hzn, hkept, heq⟩ := exec_next_putReg he ho (logic_eq_putReg (operand_sameButBus ho) op m)
    have hac : u.ac = op s.ac m := by rw [heq]; rfl
    rw [← hac] at hzn heq
    exact ⟨u, hu, fun k => by rw [hac]; exact hop _ _ k, hzn, hkept, heq⟩

end Sys2Proof.Machine
end

section
/-! PROOFS. Shifts and rotates (42_shift_rotate.md R90 to R94): how a read-modify-write ends, the flags of R90, and the four
results in numbers. -/

namespace Sys2Proof.Machine

/-! ## A read-modify-write -/

/-- Every mode but the two indirect ones resolves with no bus access (R65 to R70). -/
theorem ea_of_direct {f : MemForm} (h : f.mode ∉ [.indirectX, .indirectY]) (s : State) : ∃ a, ea f s = .ok a s := by
  cases f with
  | indirectX n => exact absurd List.mem_cons_self h
  | indirectY n => exact absurd (List.mem_cons_of_mem _ List.mem_cons_self) h
  | _ => exact ⟨_, rfl⟩

theorem mode_of_memory {fm : Form} {f : MemForm} (h : fm.memory? = some f) : fm.mode = f.mode := by
  cases fm with
  | memory g => cases h; rfl
  | _ => cases h

/-- At a covered address: one read, one write of the computed byte, and then the flags (R90). -/
theorem update_of_route {f : MemForm} {s t : State} {a : Address} {p : Place} (compute : Byte → State → Byte)
    (flags : Byte → Byte → State → State) (he : ea f s = .ok a t) (hp : route t.platform a = some p) :
    update f compute flags s =
      .next (flags (t.answer p) (compute (t.answer p) (t.readDone a p))
        ((t.readDone a p).writeDone a p (compute (t.answer p) (t.readDone a p)))) := by
  have hp' : route (t.readDone a p).platform a = some p := hp
  rw [update, he, Res.ok_andThen, memRead_of_route hp, Res.ok_andThen, memWrite_of_route _ hp', Res.ok_andThen, Res.ok_outcome]

/-- At an address no binding covers the read faults, and nothing is written (R35, R90). -/
theorem update_of_unmapped {f : MemForm} {s t : State} {a : Address} (compute : Byte → State → Byte)
    (flags : Byte → Byte → State → State) (he : ea f s = .ok a t) (hp : route t.platform a = none) :
    update f compute flags s = .next (t.enterFault (.busFault (.read a))) := by
  rw [update, he, Res.ok_andThen, memRead_of_unmapped hp, Res.raised_andThen, Res.raised_outcome]

theorem State.writeDone_storesByte {s : State} {a : Address} {p : Place} (v : Byte) (hp : route s.platform a = some p) :
    StoresByte s (s.writeDone a p v) a p v :=
  ⟨State.peek_writeDone_self v hp, fun _ _ => State.peek_writeDone_ne v⟩

/-- The bytes of memory do not depend on the bus, so a read before the write is no part of what is stored. -/
theorem StoresByte.of_readDone {s u : State} {a b : Address} {p q : Place} {v : Byte}
    (h : StoresByte (s.readDone b q) u a p v) : StoresByte s u a p v := h

/-- The bytes of memory do not depend on SR, so flags set after the write are no part of what is stored. -/
theorem StoresByte.setSr {s u : State} {a : Address} {p : Place} {v : Byte} (h : StoresByte s u a p v) (sr : Byte) :
    StoresByte s (u.setSr sr) a p v := h

/-! ## The flags of R90 -/

theorem shiftFlags_eq_setSr (out : Byte → Bool) (old new : Byte) (s : State) :
    shiftFlags out old new s = s.setSr (shiftFlags out old new s).sr := rfl

theorem shiftFlags_flag_C (out : Byte → Bool) (old new : Byte) (s : State) :
    flag (shiftFlags out old new s).sr .C = out old := by
  simp [shiftFlags]

theorem shiftFlags_reflectsZN (out : Byte → Bool) (old new : Byte) (s : State) :
    ReflectsZN (shiftFlags out old new s).sr new := setZN_reflects new _

theorem shiftFlags_flagsKept (out : Byte → Bool) (old new : Byte) (s : State) :
    FlagsKept [.C, .Z, .N] s.sr (shiftFlags out old new s).sr := by
  intro f hf
  obtain ⟨hc, hz, hn⟩ : f ≠ .C ∧ f ≠ .Z ∧ f ≠ .N := by simpa using hf
  rw [shiftFlags, setZN_flag _ _ hz hn, State.setFlag_sr, flag_putFlag, if_neg hc]

/-! ## The results in numbers -/

theorem toNat_aslResult (v : Byte) (c : Bool) : (aslResult v c).toNat = v.toNat * 2 % 256 := by
  rw [aslResult, BitVec.toNat_shiftLeft, Nat.shiftLeft_eq]

theorem toNat_lsrResult (v : Byte) (c : Bool) : (lsrResult v c).toNat = v.toNat / 2 := by
  rw [lsrResult, BitVec.toNat_ushiftRight, Nat.shiftRight_eq_div_pow]

/-- A left shift leaves bit 0 free, so putting the carry in adds it. -/
theorem toNat_rolResult (v : Byte) (c : Bool) : (rolResult v c).toNat = v.toNat * 2 % 256 + c.toNat := by
  have hshift : (v <<< 1).toNat = 2 ^ 1 * (v.toNat % 128) := by
    have hasl : (v <<< 1).toNat = v.toNat * 2 % 256 := toNat_aslResult v c
    omega
  have hcarry : (if c then 0x01 else 0x00 : Byte).toNat = c.toNat := by cases c <;> rfl
  rw [rolResult, BitVec.toNat_or, hshift, hcarry, ← Nat.two_pow_add_eq_or_of_lt c.toNat_lt]
  omega

/-- A right shift leaves bit 7 free, so putting the carry in adds 128 times it. -/
theorem toNat_rorResult (v : Byte) (c : Bool) : (rorResult v c).toNat = v.toNat / 2 + c.toNat * 128 := by
  have hshift : (v >>> 1).toNat = v.toNat / 2 := toNat_lsrResult v c
  have hcarry : (if c then 0x80 else 0x00 : Byte).toNat = 2 ^ 7 * c.toNat := by cases c <;> rfl
  have hlt : v.toNat / 2 < 2 ^ 7 := by
    have := v.isLt
    omega
  rw [rorResult, BitVec.toNat_or, hshift, hcarry, Nat.or_comm, ← Nat.two_pow_add_eq_or_of_lt hlt]
  omega

/-- The model's result and carry-out of each shift are the numbers of R91 to R94. -/
theorem ShiftAct.shiftSpec_eq {m : Mnemonic} {result : Byte → Bool → Byte} {out : Byte → Bool} (h : ShiftAct m result out)
    (v : Byte) (c : Bool) : shiftSpec m v c = some ((result v c).toNat, out v) := by
  cases h with
  | asl => rw [toNat_aslResult]; rfl
  | lsr => rw [toNat_lsrResult]; rfl
  | rol => rw [toNat_rolResult]; rfl
  | ror => rw [toNat_rorResult]; rfl

/-- A result and a carry-out that R91 to R94 give are the model's. -/
theorem ShiftAct.eq_of_shiftSpec {m : Mnemonic} {result : Byte → Bool → Byte} {out : Byte → Bool} (h : ShiftAct m result out)
    {v : Byte} {c : Bool} {r : Nat} {k : Bool} (hs : shiftSpec m v c = some (r, k)) : (result v c).toNat = r ∧ out v = k := by
  simpa [h.shiftSpec_eq v c] using hs

/-! ## The four shifts in accumulator mode and in their memory modes -/

/-- In accumulator mode an instruction is one of the four shifts (R63). -/
theorem exec_shift_acc {i : Instr} (hf : i.form = .accumulator) (s : State) :
    ∃ result out, ShiftAct i.mnemonic result out ∧ exec i s = shiftAcc result out s := by
  cases i with
  | aslAcc => exact ⟨_, _, .asl, exec_asl_acc rfl rfl s⟩
  | lsrAcc => exact ⟨_, _, .lsr, exec_lsr_acc rfl rfl s⟩
  | rolAcc => exact ⟨_, _, .rol, exec_rol_acc rfl rfl s⟩
  | rorAcc => exact ⟨_, _, .ror, exec_ror_acc rfl rfl s⟩
  | _ => cases hf

theorem exec_shift_mem {i : Instr} {f : MemForm} (hm : i.mnemonic ∈ [.ASL, .LSR, .ROL, .ROR]) (hf : i.form.memory? = some f)
    (s : State) : ∃ result out, ShiftAct i.mnemonic result out ∧ exec i s = shiftMem f result out s := by
  obtain hm | hm | hm | hm : i.mnemonic = .ASL ∨ i.mnemonic = .LSR ∨ i.mnemonic = .ROL ∨ i.mnemonic = .ROR := by simpa using hm
  all_goals rw [hm]
  · exact ⟨_, _, .asl, exec_asl_mem hm hf s⟩
  · exact ⟨_, _, .lsr, exec_lsr_mem hm hf s⟩
  · exact ⟨_, _, .rol, exec_rol_mem hm hf s⟩
  · exact ⟨_, _, .ror, exec_ror_mem hm hf s⟩

/-- R90 in accumulator mode takes a result into AC and the flags as ADC does. -/
theorem shiftAcc_eq_takeResult (result : Byte → Bool → Byte) (out : Byte → Bool) (s : State) :
    shiftAcc result out s = .next (takeResult (result s.ac (flag s.sr .C)) (out s.ac) s) := rfl

/-- The memory modes of the four shifts, with their opcode bytes (R56). -/
def shiftRows : List (Mnemonic × Mode × Byte) :=
  [(.ASL, .zeropage, 0x06), (.ASL, .zeropageX, 0x16), (.ASL, .absolute, 0x0E), (.ASL, .absoluteX, 0x1E),
   (.LSR, .zeropage, 0x46), (.LSR, .zeropageX, 0x56), (.LSR, .absolute, 0x4E), (.LSR, .absoluteX, 0x5E),
   (.ROL, .zeropage, 0x26), (.ROL, .zeropageX, 0x36), (.ROL, .absolute, 0x2E), (.ROL, .absoluteX, 0x3E),
   (.ROR, .zeropage, 0x66), (.ROR, .zeropageX, 0x76), (.ROR, .absolute, 0x6E), (.ROR, .absoluteX, 0x7E)]

theorem shift_mem_shiftRows {i : Instr} {f : MemForm} (hm : i.mnemonic ∈ [.ASL, .LSR, .ROL, .ROR])
    (hf : i.form.memory? = some f) : (i.mnemonic, i.form.mode, i.opcode) ∈ shiftRows := by
  cases i with
  | aslAcc | lsrAcc | rolAcc | rorAcc => cases hf
  | aslZp _ | aslZpx _ | aslAbs _ | aslAbx _ | lsrZp _ | lsrZpx _ | lsrAbs _ | lsrAbx _
  | rolZp _ | rolZpx _ | rolAbs _ | rolAbx _ | rorZp _ | rorZpx _ | rorAbs _ | rorAbx _ =>
    simp [shiftRows, Instr.mnemonic, Instr.form, Form.mode, MemForm.mode, Instr.opcode]
  | _ => simp [Instr.mnemonic] at hm

theorem shiftRows_direct : ∀ row ∈ shiftRows, row.2.1 ∉ [Mode.indirectX, .indirectY] := by decide

/-- A shift of AC with the result and the carry-out of R91 to R94: AC and the flags have changed, and nothing else. -/
theorem exec_next_shift_acc {i : Instr} {s : State} {r : Nat} {k : Bool} (hf : i.form = .accumulator)
    (hs : shiftSpec i.mnemonic s.ac (flag s.sr .C) = some (r, k)) :
    ∃ u, exec i s = .next u ∧ u.ac.toNat = r ∧ flag u.sr .C = k ∧ ReflectsZN u.sr u.ac ∧
      FlagsKept [.C, .Z, .N] s.sr u.sr ∧ u = { s with ac := u.ac, sr := u.sr } := by
  obtain ⟨result, out, ha, he⟩ := exec_shift_acc hf s
  obtain ⟨rfl, rfl⟩ := ha.eq_of_shiftSpec hs
  exact ⟨_, he.trans (shiftAcc_eq_takeResult result out s), rfl, takeResult_flag_C _ _ s, takeResult_reflectsZN _ _ s,
    takeResult_flagsKept _ _ s, takeResult_eq _ _ s⟩

/-- A shift of the byte at a covered address: that byte, the two accesses and the flags have changed, and nothing else. -/
theorem shiftMem_next_of_route {f : MemForm} {s : State} {a : Address} {p : Place} (result : Byte → Bool → Byte)
    (out : Byte → Bool) {r : Byte} (he : ea f s = .ok a s) (hp : route s.platform a = some p)
    (hr : result (s.answer p) (flag s.sr .C) = r) :
    ∃ u, shiftMem f result out s = .next u ∧ flag u.sr .C = out (s.answer p) ∧ ReflectsZN u.sr r ∧
      FlagsKept [.C, .Z, .N] s.sr u.sr ∧ StoresByte s u a p r ∧
      u = { s with sr := u.sr, mem := u.mem, disturbed := u.disturbed,
                   bus := .write a p.backend p.localAddr r :: .read a p.backend p.localAddr (s.answer p) :: s.bus } := by
  subst hr
  have hp' : route (s.readDone a p).platform a = some p := hp
  refine ⟨_, update_of_route _ _ he hp, shiftFlags_flag_C _ _ _ _, shiftFlags_reflectsZN _ _ _ _, ?_,
    (State.writeDone_storesByte _ hp').of_readDone.setSr _, ?_⟩
  · have hkept := shiftFlags_flagsKept out (s.answer p) (result (s.answer p) (flag s.sr .C))
      ((s.readDone a p).writeDone a p (result (s.answer p) (flag s.sr .C)))
    rwa [State.writeDone_sr, State.readDone_sr] at hkept
  · rw [shiftFlags_eq_setSr, State.writeDone_eq]
    rfl

/-- Settles O39: the result of each shift in numbers, taken into AC, or through one read and one write at the effective
address. -/
theorem shiftsMoveOneBit : Obligations.ShiftsMoveOneBit := by
  refine ⟨fun i s r k hf hs => ⟨?_, exec_next_shift_acc hf hs⟩, fun i f s hm hf => ?_⟩
  · cases i with
    | aslAcc | lsrAcc | rolAcc | rorAcc => simp [Instr.mnemonic, Instr.opcode]
    | _ => cases hf
  · have hrow := shift_mem_shiftRows hm hf
    have hdirect : f.mode ∉ [.indirectX, .indirectY] := mode_of_memory hf ▸ shiftRows_direct _ hrow
    obtain ⟨result, out, ha, he⟩ := exec_shift_mem hm hf s
    refine ⟨hrow, ea_of_direct hdirect s, fun a p r k hea hp hs => ?_, fun a hea hp => ?_⟩
    · obtain ⟨rfl, rfl⟩ := ha.eq_of_shiftSpec hs
      rw [he, BitVec.ofNat_toNat, BitVec.setWidth_eq]
      exact shiftMem_next_of_route result out hea hp rfl
    · exact ⟨_, he.trans (update_of_unmapped _ _ hea hp), s.enterFault_endsFaulted _, s.enterFault_bus _⟩

end Sys2Proof.Machine
end

section
/-! PROOFS. Compares (43_compare.md R95 to R98): the flags of R95 in numbers, and how a compare ends. -/

namespace Sys2Proof.Machine

/-! ## The flags of R95 -/

/-- A compare sets its flags as a shift does: C, and then Z and N from the difference (R90, R95). -/
theorem compareReg_eq_shiftFlags (r : Reg) (m : Byte) (s : State) :
    compareReg r m s = shiftFlags (fun v => decide (m.toNat ≤ v.toNat)) (s.reg r) (s.reg r - m) s := rfl

theorem compareReg_flag_C (r : Reg) (m : Byte) (s : State) :
    flag (compareReg r m s).sr .C = decide (m.toNat ≤ (s.reg r).toNat) := by
  rw [compareReg_eq_shiftFlags, shiftFlags_flag_C]

theorem compareReg_reflectsZN (r : Reg) (m : Byte) (s : State) : ReflectsZN (compareReg r m s).sr (s.reg r - m) :=
  setZN_reflects _ _

/-- The difference is 0 exactly where the register equals the operand. -/
theorem compareReg_flag_Z (r : Reg) (m : Byte) (s : State) :
    flag (compareReg r m s).sr .Z = decide (s.reg r = m) := by
  obtain ⟨hz, -⟩ := compareReg_reflectsZN r m s
  rw [hz, decide_eq_decide, sub_eq_zero]

theorem compareReg_flagsKept (r : Reg) (m : Byte) (s : State) : FlagsKept [.C, .Z, .N] s.sr (compareReg r m s).sr := by
  rw [compareReg_eq_shiftFlags]
  exact shiftFlags_flagsKept _ _ _ s

/-- The 8-bit difference in numbers, modulo 256. -/
theorem ofNat_toNat_sub (a m : Byte) : BitVec.ofNat 8 ((a.toNat + 256 - m.toNat) % 256) = a - m := by
  have hm := m.isLt
  apply BitVec.eq_of_toNat_eq
  rw [BitVec.toNat_ofNat, BitVec.toNat_sub]
  omega

/-! ## CMP, CPX and CPY in all their modes -/

/-- The three mnemonics share one meaning, each with its register. -/
theorem exec_compare {i : Instr} {src : Source} {r : Reg}
    (hmem : (i.mnemonic, r) ∈ [(Mnemonic.CMP, Reg.ac), (.CPX, .x), (.CPY, .y)]) (hf : i.form.source? = some src) (s : State) :
    exec i s = readThen src (compareReg r) s := by
  obtain ⟨hm, rfl⟩ | ⟨hm, rfl⟩ | ⟨hm, rfl⟩ :
      (i.mnemonic = .CMP ∧ r = .ac) ∨ (i.mnemonic = .CPX ∧ r = .x) ∨ (i.mnemonic = .CPY ∧ r = .y) := by simpa using hmem
  · exact exec_cmp hm hf s
  · exact exec_cpx hm hf s
  · exact exec_cpy hm hf s

/-- A compare after its operand was read: the register compared is that of the state before the read, which moved the bus
alone. -/
theorem compareReg_of_sameButBus {s t : State} (h : SameButBus s t) (r : Reg) (m : Byte) :
    compareReg r m t = { s with sr := (compareReg r m s).sr, bus := t.bus } := by
  rw [h]
  cases r <;> rfl

/-- Settles O35: the operand is read, and then C, Z and N take the comparison and nothing else is written. -/
theorem comparesSetFlagsOnly : Obligations.ComparesSetFlagsOnly := by
  intro i src s r hm hf
  have he := exec_compare hm hf s
  refine ⟨?_, fun m t ho => ?_, fun t ho => ⟨he.trans (readThen_of_raised _ ho), operand_raised hf ho⟩⟩
  · cases i with
    | cmpImm _ | cmpZp _ | cmpZpx _ | cmpAbs _ | cmpAbx _ | cmpAby _ | cmpInx _ | cmpIny _
    | cpxImm _ | cpxZp _ | cpxAbs _ | cpyImm _ | cpyZp _ | cpyAbs _ =>
      simp [Instr.mnemonic, Instr.form, Form.mode, MemForm.mode, Instr.opcode]
    | _ => simp [Instr.mnemonic] at hm
  · rw [ofNat_toNat_sub]
    have hu : exec i s = .next { s with sr := (compareReg r m s).sr, bus := t.bus } := by
      rw [he, readThen_of_ok _ ho, compareReg_of_sameButBus (operand_sameButBus ho)]
    exact ⟨_, hu, compareReg_flag_C r m s, compareReg_reflectsZN r m s, compareReg_flag_Z r m s, compareReg_flagsKept r m s, rfl⟩

end Sys2Proof.Machine
end

section
/-! PROOFS. Increment and decrement (44_incdec.md R100 to R105): counting down as adding 255, how a count of a byte of memory
ends, and how a count of an index register does. -/

namespace Sys2Proof.Machine

/-! ## The count in numbers -/

/-- A byte sum in numbers, modulo 256. -/
theorem ofNat_toNat_add (a k : Byte) : BitVec.ofNat 8 ((a.toNat + k.toNat) % 256) = a + k :=
  BitVec.eq_of_toNat_eq (by rw [BitVec.toNat_ofNat, Nat.mod_mod, BitVec.toNat_add])

/-- Down by one modulo 256 is up by 255, so all six instructions add (R101, R103, R105). -/
theorem sub_one_eq_add_255 (v : Byte) : v - 1 = v + 255 := BitVec.sub_eq_add_neg v 1

/-! ## INC and DEC in their four modes -/

/-- The modes of INC and DEC, with their opcode bytes (R56). -/
def incDecRows : List (Mnemonic × Mode × Byte) :=
  [(.INC, .zeropage, 0xE6), (.INC, .zeropageX, 0xF6), (.INC, .absolute, 0xEE), (.INC, .absoluteX, 0xFE),
   (.DEC, .zeropage, 0xC6), (.DEC, .zeropageX, 0xD6), (.DEC, .absolute, 0xCE), (.DEC, .absoluteX, 0xDE)]

theorem incDec_mem_incDecRows {i : Instr} (hm : i.mnemonic ∈ [.INC, .DEC]) :
    (i.mnemonic, i.form.mode, i.opcode) ∈ incDecRows := by
  cases i with
  | incZp _ | incZpx _ | incAbs _ | incAbx _ | decZp _ | decZpx _ | decAbs _ | decAbx _ =>
    simp [incDecRows, Instr.mnemonic, Instr.form, Form.mode, MemForm.mode, Instr.opcode]
  | _ => simp [Instr.mnemonic] at hm

theorem incDecRows_direct : ∀ row ∈ incDecRows, row.2.1 ∉ [Mode.indirectX, .indirectY] := by decide

/-- INC and DEC share one meaning: a byte `k` is added to the byte of memory. -/
theorem exec_incDec {i : Instr} {f : MemForm} (hm : i.mnemonic ∈ [.INC, .DEC]) (hf : i.form.memory? = some f) (s : State) :
    ∃ k : Byte, k.toNat = (if i.mnemonic = .INC then 1 else 255) ∧ exec i s = update f (fun v _ => v + k) countFlags s := by
  obtain hm | hm : i.mnemonic = .INC ∨ i.mnemonic = .DEC := by simpa using hm
  all_goals rw [hm]
  · exact ⟨1, rfl, exec_inc hm hf s⟩
  · refine ⟨255, rfl, ?_⟩
    simp only [exec_dec hm hf s, sub_one_eq_add_255]

/-- A count of the byte at a covered address: that byte, the two accesses, Z and N have changed, and nothing else. -/
theorem count_next_of_route {f : MemForm} {s : State} {a : Address} {p : Place} (k : Byte) (he : ea f s = .ok a s)
    (hp : route s.platform a = some p) :
    ∃ u, update f (fun v _ => v + k) countFlags s = .next u ∧ ReflectsZN u.sr (s.answer p + k) ∧
      FlagsKept [.Z, .N] s.sr u.sr ∧ StoresByte s u a p (s.answer p + k) ∧
      u = { s with sr := u.sr, mem := u.mem, disturbed := u.disturbed,
                   bus := .write a p.backend p.localAddr (s.answer p + k) ::
                          .read a p.backend p.localAddr (s.answer p) :: s.bus } := by
  have hp' : route (s.readDone a p).platform a = some p := hp
  refine ⟨_, update_of_route _ _ he hp, setZN_reflects _ _, ?_, (State.writeDone_storesByte _ hp').of_readDone.setSr _, ?_⟩
  · have hkept := setZN_flagsKept (s.answer p + k) ((s.readDone a p).writeDone a p (s.answer p + k))
    rwa [State.writeDone_sr, State.readDone_sr] at hkept
  · rw [State.writeDone_eq]
    rfl

/-- Settles O38: the byte takes the sum through one read and one write at the effective address, or the read faults. -/
theorem incDecCountTheByte : Obligations.IncDecCountTheByte := by
  intro i f s hm hf
  have hrow := incDec_mem_incDecRows hm
  have hdirect : f.mode ∉ [.indirectX, .indirectY] := mode_of_memory hf ▸ incDecRows_direct _ hrow
  obtain ⟨k, hk, he⟩ := exec_incDec hm hf s
  refine ⟨hrow, ea_of_direct hdirect s, fun a p hea hp => ?_, fun a hea hp => ?_⟩
  · rw [he, ← hk, ofNat_toNat_add]
    obtain ⟨u, hu, hrest⟩ := count_next_of_route k hea hp
    exact ⟨u, _, hu, rfl, hrest⟩
  · exact ⟨_, he.trans (update_of_unmapped _ _ hea hp), s.enterFault_endsFaulted _, s.enterFault_bus _⟩

/-! ## INX, DEX, INY and DEY -/

/-- The four instructions and their operations: a byte `k` is added to the index register. -/
theorem exec_indexCount {i : Instr} {r : Reg} {step : Nat} {op : Byte}
    (h : (i, r, step, op) ∈ [(Instr.inx, Reg.x, 1, (0xE8 : Byte)), (.dex, .x, 255, 0xCA), (.iny, .y, 1, 0xC8),
      (.dey, .y, 255, 0x88)]) (s : State) :
    i.opcode = op ∧ ∃ k : Byte, k.toNat = step ∧ exec i s = .next (putReg r (s.reg r + k) s) := by
  simp only [List.mem_cons, List.not_mem_nil, or_false, Prod.mk.injEq] at h
  obtain ⟨rfl, rfl, rfl, rfl⟩ | ⟨rfl, rfl, rfl, rfl⟩ | ⟨rfl, rfl, rfl, rfl⟩ | ⟨rfl, rfl, rfl, rfl⟩ := h
  · exact ⟨rfl, 1, rfl, exec_inx s⟩
  · exact ⟨rfl, 255, rfl, by rw [exec_dex, sub_one_eq_add_255]; rfl⟩
  · exact ⟨rfl, 1, rfl, exec_iny s⟩
  · exact ⟨rfl, 255, rfl, by rw [exec_dey, sub_one_eq_add_255]; rfl⟩

/-- Settles O40: the register takes the sum, Z and N reflect it, and nothing else moves. -/
theorem indexRegistersCount : Obligations.IndexRegistersCount := by
  intro i s r step op h
  obtain ⟨hop, k, rfl, he⟩ := exec_indexCount h s
  rw [ofNat_toNat_add]
  exact ⟨hop, _, _, he, rfl, putReg_reflectsZN r _ s, putReg_flagsKept r _ s, putReg_eq r _ s⟩

end Sys2Proof.Machine
end

section
/-! PROOFS. Branches (45_branch.md R110 to R116): the relative-mode instructions, the condition each takes, and the move of `pc`
in numbers. -/

namespace Sys2Proof.Machine

/-! ## The move of `pc` -/

/-- A 16-bit word takes an integer modulo 65536. -/
theorem ofInt_emod_65536 (z : Int) : BitVec.ofInt 16 (z % 65536) = BitVec.ofInt 16 z :=
  BitVec.eq_of_toInt_eq (by rw [BitVec.toInt_ofInt, BitVec.toInt_ofInt]; exact Int.emod_bmod z 65536)

/-- R73 in numbers: the signed offset is added modulo 65536. -/
theorem add_sext16 (pc : Address) (n : Byte) :
    pc + sext16 n = BitVec.ofInt 16 (((pc.toNat : Int) + n.toInt) % 65536) := by
  rw [ofInt_emod_65536, BitVec.ofInt_add, BitVec.ofInt_natCast, BitVec.ofNat_toNat, BitVec.setWidth_eq, sext16,
    BitVec.signExtend]

/-- A branch writes `pc` alone (R110). -/
theorem branch_eq (c : Bool) (n : Byte) (s : State) :
    branch c n s =
      .next { s with pc := if c then BitVec.ofInt 16 (((s.pc.toNat : Int) + n.toInt) % 65536) else s.pc } := by
  rw [← add_sext16]
  cases c <;> rfl

/-! ## The six instructions -/

/-- The branches with their opcode bytes (R56). -/
def branchRows : List (Mnemonic × Byte) :=
  [(.BCC, 0x90), (.BCS, 0xB0), (.BEQ, 0xF0), (.BNE, 0xD0), (.BMI, 0x30), (.BPL, 0x10)]

theorem relative_cases {i : Instr} {n : Byte} (hf : i.form = .relative n) :
    i = .bcc n ∨ i = .bcs n ∨ i = .beq n ∨ i = .bne n ∨ i = .bmi n ∨ i = .bpl n := by
  cases i with
  | bcc _ | bcs _ | beq _ | bne _ | bmi _ | bpl _ => cases hf; simp
  | _ => cases hf

theorem relative_mem_branchRows {i : Instr} {n : Byte} (hf : i.form = .relative n) :
    (i.mnemonic, i.opcode) ∈ branchRows := by
  obtain rfl | rfl | rfl | rfl | rfl | rfl := relative_cases hf <;> simp [branchRows, Instr.mnemonic, Instr.opcode]

/-- Each relative-mode instruction branches on the condition of its mnemonic (R111 to R116). -/
theorem exec_relative {i : Instr} {n : Byte} (hf : i.form = .relative n) (s : State) :
    ∃ c, branchSpec i.mnemonic s.sr = some c ∧ exec i s = branch c n s := by
  obtain rfl | rfl | rfl | rfl | rfl | rfl := relative_cases hf
  · exact ⟨_, rfl, exec_bcc n s⟩
  · exact ⟨_, rfl, exec_bcs n s⟩
  · exact ⟨_, rfl, exec_beq n s⟩
  · exact ⟨_, rfl, exec_bne n s⟩
  · exact ⟨_, rfl, exec_bmi n s⟩
  · exact ⟨_, rfl, exec_bpl n s⟩

/-- Settles O46: each of the six branches on its own condition, and a branch writes `pc` alone. -/
theorem branchesMovePcOnTheirCondition : Obligations.BranchesMovePcOnTheirCondition := by
  intro i n s hf
  obtain ⟨c, hc, he⟩ := exec_relative hf s
  exact ⟨relative_mem_branchRows hf, c, hc, he.trans (branch_eq c n s)⟩

end Sys2Proof.Machine
end

section
/-! PROOFS. Jumps (46_jump.md R120 to R122): the stack addresses and the return address in numbers, what a covered push and a
covered pull leave, and the two-byte sequences of JSR and RTS. -/

namespace Sys2Proof.Machine

/-! ## JMP -/

theorem eq_jmp_of_mnemonic {i : Instr} (hm : i.mnemonic = .JMP) : ∃ w, i = .jmp w := by
  cases i with
  | jmp w => exact ⟨w, rfl⟩
  | _ => cases hm

/-- Settles O47: of all instructions one has the mnemonic, and it writes `pc` alone. -/
theorem jmpSetsPc : Obligations.JmpSetsPc :=
  ⟨fun _ => ⟨rfl, rfl⟩, fun _ => eq_jmp_of_mnemonic, rfl, exec_jmp⟩

/-! ## The stack addresses and the return address in numbers -/

theorem ofNat_stack_toNat (sp : Byte) : BitVec.ofNat 16 (0x0100 + sp.toNat) = stackAddr sp := by
  rw [BitVec.ofNat_add, ofNat_toNat_eq_zext16]
  rfl

/-- A moved SP wraps inside page 1 (R13). -/
theorem ofNat_stack_toNat_add (sp k : Byte) : BitVec.ofNat 16 (0x0100 + (sp.toNat + k.toNat) % 256) = stackAddr (sp + k) :=
  ofNat_stack_toNat (sp + k)

theorem ofNat_toNat_div_256 (w : Address) : BitVec.ofNat 8 (w.toNat / 256) = hi w := by
  rw [← toNat_hi, BitVec.ofNat_toNat, BitVec.setWidth_eq]

theorem ofNat_toNat_mod_256 (w : Address) : BitVec.ofNat 8 (w.toNat % 256) = lo w := by
  rw [← toNat_lo, BitVec.ofNat_toNat, BitVec.setWidth_eq]

theorem toNat_sub_one (w : Address) : (w - 1).toNat = (w.toNat + 65535) % 65536 := by
  rw [BitVec.toNat_sub, Nat.add_comm]
  rfl

/-! ## Two bytes stored one after the other -/

/-- Two places in one backend are of one kind. -/
theorem route_kind_eq {pl : Platform} {a b : Address} {p q : Place} (hp : route pl a = some p) (hq : route pl b = some q)
    (h : p.backend = q.backend) : p.kind = q.kind := by
  obtain ⟨_, c, _, k, -, -, -, hk, rfl, -⟩ := (firstCoveringBindingIsUsed.1 pl a p).1 hp
  obtain ⟨_, d, _, l, -, -, -, hl, rfl, -⟩ := (firstCoveringBindingIsUsed.1 pl b q).1 hq
  have hkl : some k = some l := by rw [← hk, ← hl, show c.backend = d.backend from h]
  exact congrArg Backend.kind (Option.some.inj hkl)

/-- The second byte stored leaves a first one in RAM as it was, under another key: no ROM shares a RAM's backend. -/
theorem StoresByte.peek_first {s t u : State} {a b : Address} {p q : Place} {v w : Byte} (h₁ : StoresByte s t a p v)
    (h₂ : StoresByte t u b q w) (hp : route t.platform a = some p) (hq : route t.platform b = some q)
    (hwf : Memory.wf s.mem = true) (hk : p.kind = .ram) (hne : p.key ≠ q.key) : u.peek a = some v := by
  have hrom : q.kind = .rom → p.backend ≠ q.backend := by
    intro hqk hback
    have hpk := (route_kind_eq hp hq hback).trans hqk
    simp [hk] at hpk
  exact (h₂.2 a p hp hne hrom).trans (h₁.1 hk hwf)

/-- A byte under neither key reads as before both were stored. -/
theorem StoresByte.peek_other {s t u : State} {a b c : Address} {p q r : Place} {v w : Byte} (h₁ : StoresByte s t a p v)
    (h₂ : StoresByte t u b q w) (hs : route s.platform c = some r) (ht : route t.platform c = some r) (hp : r.key ≠ p.key)
    (hq : r.key ≠ q.key) (hpr : p.kind = .rom → r.backend ≠ p.backend) (hqr : q.kind = .rom → r.backend ≠ q.backend) :
    u.peek c = s.peek c :=
  (h₂.2 c r ht hq hqr).trans (h₁.2 c r hs hp hpr)

/-! ## One push -/

/-- The state a covered `push8` of `v` leaves (R28). -/
def State.pushDone (s : State) (p : Place) (v : Byte) : State := (s.writeDone (stackAddr s.sp) p v).setReg .sp (s.sp - 1)

theorem push8_eq_pushDone {s : State} {p : Place} (v : Byte) (h : route s.platform (stackAddr s.sp) = some p) :
    push8 v s = .ok () (s.pushDone p v) := push8_of_route v h

@[simp] theorem State.pushDone_platform (s : State) (p : Place) (v : Byte) : (s.pushDone p v).platform = s.platform := by
  simp [State.pushDone]

@[simp] theorem State.pushDone_sp (s : State) (p : Place) (v : Byte) : (s.pushDone p v).sp = s.sp - 1 := rfl

@[simp] theorem State.pushDone_bus (s : State) (p : Place) (v : Byte) :
    (s.pushDone p v).bus = .write (stackAddr s.sp) p.backend p.localAddr v :: s.bus := by
  simp [State.pushDone]

theorem State.pushDone_wf {s : State} (p : Place) (v : Byte) (h : Memory.wf s.mem = true) :
    Memory.wf (s.pushDone p v).mem = true := State.writeDone_wf _ p v h

/-- A covered push changes nothing but SP, memory, the disturbed ROMs and the bus. -/
theorem State.pushDone_eq (s : State) (p : Place) (v : Byte) :
    s.pushDone p v =
      { s with sp := s.sp - 1, mem := (s.pushDone p v).mem, disturbed := (s.pushDone p v).disturbed
               bus := .write (stackAddr s.sp) p.backend p.localAddr v :: s.bus } :=
  congrArg (State.setReg · .sp (s.sp - 1)) (s.writeDone_eq (stackAddr s.sp) p v)

theorem State.pushDone_storesByte {s : State} {p : Place} (v : Byte) (h : route s.platform (stackAddr s.sp) = some p) :
    StoresByte s (s.pushDone p v) (stackAddr s.sp) p v := State.writeDone_storesByte v h

/-- A fault after one push leaves what the push did and fault entry. -/
theorem State.pushDone_enterFault_endsFaulted (s : State) (p : Place) (v : Byte) (c : Cause) :
    EndsFaulted { s with sp := s.sp - 1, mem := (s.pushDone p v).mem, disturbed := (s.pushDone p v).disturbed }
      ((s.pushDone p v).enterFault c) c := by
  rw [EndsFaulted, State.enterFault_bus, State.pushDone_bus]
  exact congrArg (State.enterFault · c) (s.pushDone_eq p v)

/-! ## JSR -/

/-- The state a JSR leaves whose two writes are covered (R121). -/
def State.callDone (s : State) (w : Address) (p q : Place) : State :=
  ((s.pushDone p (hi (s.pc - 1))).pushDone q (lo (s.pc - 1))).setPc w

theorem exec_jsr_of_covered {s : State} {p q : Place} (w : Address) (hp : route s.platform (stackAddr s.sp) = some p)
    (hq : route s.platform (stackAddr (s.sp - 1)) = some q) : exec (.jsr w) s = .next (s.callDone w p q) := by
  have hq' : route (s.pushDone p (hi (s.pc - 1))).platform (stackAddr (s.sp - 1)) = some q := by
    rw [State.pushDone_platform, hq]
  rw [exec_jsr, push8_eq_pushDone _ hp, Res.ok_andThen, push8_eq_pushDone _ hq', Res.ok_andThen, Res.ok_outcome,
    State.callDone]

theorem exec_jsr_of_high_unmapped {s : State} (w : Address) (hp : route s.platform (stackAddr s.sp) = none) :
    exec (.jsr w) s = .next (s.enterFault (.busFault (.write (stackAddr s.sp) (hi (s.pc - 1))))) := by
  rw [exec_jsr, push8_of_unmapped _ hp, Res.raised_andThen, Res.raised_outcome]

theorem exec_jsr_of_low_unmapped {s : State} {p : Place} (w : Address) (hp : route s.platform (stackAddr s.sp) = some p)
    (hq : route s.platform (stackAddr (s.sp - 1)) = none) :
    exec (.jsr w) s =
      .next ((s.pushDone p (hi (s.pc - 1))).enterFault (.busFault (.write (stackAddr (s.sp - 1)) (lo (s.pc - 1))))) := by
  have hq' : route (s.pushDone p (hi (s.pc - 1))).platform (stackAddr (s.sp - 1)) = none := by
    rw [State.pushDone_platform, hq]
  rw [exec_jsr, push8_eq_pushDone _ hp, Res.ok_andThen, push8_of_unmapped _ hq', Res.raised_andThen, Res.raised_outcome,
    State.pushDone_sp]

/-- A covered JSR changes nothing but `pc`, SP, memory, the disturbed ROMs and the bus. -/
theorem State.callDone_eq (s : State) (w : Address) (p q : Place) :
    s.callDone w p q =
      { s with
        pc := w, sp := s.sp - 2, mem := (s.callDone w p q).mem, disturbed := (s.callDone w p q).disturbed
        bus := .write (stackAddr (s.sp - 1)) q.backend q.localAddr (lo (s.pc - 1)) ::
               .write (stackAddr s.sp) p.backend p.localAddr (hi (s.pc - 1)) :: s.bus } := by
  have hsp : s.sp - 2 = s.sp - 1 - 1 := (sub_sub s.sp 1 1).symm
  rw [hsp, State.callDone, (s.pushDone p (hi (s.pc - 1))).pushDone_eq q, s.pushDone_eq p]
  rfl

/-- Settles O48: the two pushes of the bytes of `pc - 1` by what each leaves, or the fault of the first or of the second. -/
theorem jsrPushesTheReturnAddress : Obligations.JsrPushesTheReturnAddress := by
  intro w s ret hiAddr loAddr hret hhi hlo
  obtain rfl : ret = (s.pc - 1).toNat := hret.trans (toNat_sub_one s.pc).symm
  obtain rfl : hiAddr = stackAddr s.sp := hhi.trans (ofNat_stack_toNat s.sp)
  obtain rfl : loAddr = stackAddr (s.sp - 1) := by
    rw [hlo, sub_one_eq_add_255]
    exact ofNat_stack_toNat_add s.sp 255
  rw [ofNat_toNat_div_256, ofNat_toNat_mod_256]
  refine ⟨rfl, fun p q hp hq => ?_, fun hp => ?_, fun p hp hq => ?_⟩
  · have hroute {a : Address} {r : Place} (h : route s.platform a = some r) :
        route (s.pushDone p (hi (s.pc - 1))).platform a = some r := by rw [State.pushDone_platform, h]
    have hfirst := State.pushDone_storesByte (hi (s.pc - 1)) hp
    have hsecond : StoresByte _ (s.callDone w p q) (stackAddr (s.sp - 1)) q (lo (s.pc - 1)) :=
      State.pushDone_storesByte (lo (s.pc - 1)) (hroute hq)
    exact ⟨_, exec_jsr_of_covered w hp hq, s.callDone_eq w p q,
      fun hwf hk => hsecond.1 hk (State.pushDone_wf p _ hwf),
      fun hwf hk hne => hfirst.peek_first hsecond (hroute hp) (hroute hq) hwf hk hne,
      fun b r hr => hfirst.peek_other hsecond hr (hroute hr)⟩
  · exact ⟨_, exec_jsr_of_high_unmapped w hp, s.enterFault_endsFaulted _, s.enterFault_bus _⟩
  · exact ⟨_, exec_jsr_of_low_unmapped w hp hq, s.pushDone_enterFault_endsFaulted p _ _,
      (State.enterFault_bus _ _).trans (s.pushDone_bus p _), State.pushDone_storesByte _ hp⟩

/-! ## One pull -/

/-- The state a covered `pull8` leaves (R29). -/
def State.pullDone (s : State) (p : Place) : State := (s.setReg .sp (s.sp + 1)).readDone (stackAddr (s.sp + 1)) p

theorem pull8_eq_pullDone {s : State} {p : Place} (h : route s.platform (stackAddr (s.sp + 1)) = some p) :
    pull8 s = .ok (s.answer p) (s.pullDone p) := by
  rw [pull8_of_route h, State.answer_setReg, State.pullDone]

/-- A covered pull changes nothing but SP and the bus. -/
theorem State.pullDone_eq (s : State) (p : Place) :
    s.pullDone p =
      { s with sp := s.sp + 1, bus := .read (stackAddr (s.sp + 1)) p.backend p.localAddr (s.answer p) :: s.bus } := by
  rw [State.pullDone, State.readDone, State.answer_setReg]
  rfl

/-! ## RTS -/

theorem add_one_add_one (v : Byte) : v + 1 + 1 = v + 2 := BitVec.add_assoc v 1 1

theorem exec_rts_of_covered {s : State} {p q : Place} (hp : route s.platform (stackAddr (s.sp + 1)) = some p)
    (hq : route s.platform (stackAddr (s.sp + 2)) = some q) :
    exec .rts s =
      .next (((s.pullDone p).pullDone q).setPc (join ((s.pullDone p).answer q) (s.answer p) + 1)) := by
  have hq' : route (s.pullDone p).platform (stackAddr (s.sp + 1 + 1)) = some q := by rw [add_one_add_one]; exact hq
  rw [exec_rts, pull8_eq_pullDone hp, Res.ok_andThen, pull8_eq_pullDone hq', Res.ok_andThen, Res.ok_outcome]

theorem exec_rts_of_low_unmapped {s : State} (hp : route s.platform (stackAddr (s.sp + 1)) = none) :
    exec .rts s = .next ((s.setReg .sp (s.sp + 1)).enterFault (.busFault (.read (stackAddr (s.sp + 1))))) := by
  rw [exec_rts, pull8_of_unmapped hp, Res.raised_andThen, Res.raised_outcome]

theorem exec_rts_of_high_unmapped {s : State} {p : Place} (hp : route s.platform (stackAddr (s.sp + 1)) = some p)
    (hq : route s.platform (stackAddr (s.sp + 2)) = none) :
    exec .rts s =
      .next (((s.pullDone p).setReg .sp (s.sp + 2)).enterFault (.busFault (.read (stackAddr (s.sp + 2))))) := by
  have hq' : route (s.pullDone p).platform (stackAddr (s.sp + 1 + 1)) = none := by rw [add_one_add_one]; exact hq
  rw [exec_rts, pull8_eq_pullDone hp, Res.ok_andThen, pull8_of_unmapped hq', Res.raised_andThen, Res.raised_outcome,
    ← add_one_add_one]
  rfl

/-- Settles O49: the two pulls by what each leaves, or the fault of the first or of the second. -/
theorem rtsPullsTheReturnAddress : Obligations.RtsPullsTheReturnAddress := by
  intro s loAddr hiAddr hlo hhi
  obtain rfl : loAddr = stackAddr (s.sp + 1) := hlo.trans (ofNat_stack_toNat_add s.sp 1)
  obtain rfl : hiAddr = stackAddr (s.sp + 2) := hhi.trans (ofNat_stack_toNat_add s.sp 2)
  refine ⟨rfl, fun p q hp hq => ?_, fun hp => ?_, fun p hp hq => ?_⟩
  · refine ⟨_, (s.pullDone p).answer q, exec_rts_of_covered hp hq, ?_, ?_, fun v hv => ?_⟩
    · rw [State.setPc_pc, BitVec.toNat_add, toNat_join]
      rfl
    · rw [State.pullDone_eq (s.pullDone p) q, ← add_one_add_one, s.pullDone_eq p]
      rfl
    · have hpeek : (s.pullDone p).peek (stackAddr (s.sp + 2)) = s.peek (stackAddr (s.sp + 2)) := State.peek_congr rfl rfl rfl _
      exact State.answer_of_peek (s := s.pullDone p) hq (hpeek.trans hv)
  · exact ⟨_, exec_rts_of_low_unmapped hp, State.enterFault_endsFaulted _ _, State.enterFault_bus _ _⟩
  · refine ⟨_, exec_rts_of_high_unmapped hp hq, ?_, ?_⟩
    · rw [s.pullDone_eq p]
      rfl
    · rw [s.pullDone_eq p]
      rfl

end Sys2Proof.Machine
end

section
/-! PROOFS. Stack and transfer (47_stack_transfer.md R125 to R131): PHA by what a push leaves, PLA by what a pull leaves and a
register that takes a byte, and the five transfers. -/

namespace Sys2Proof.Machine

/-! ## PHA -/

theorem exec_pha_of_covered {s : State} {p : Place} (hp : route s.platform (stackAddr s.sp) = some p) :
    exec .pha s = .next (s.pushDone p s.ac) := by
  rw [exec_pha, push8_eq_pushDone s.ac hp, Res.ok_outcome]

theorem exec_pha_of_unmapped {s : State} (hp : route s.platform (stackAddr s.sp) = none) :
    exec .pha s = .next (s.enterFault (.busFault (.write (stackAddr s.sp) s.ac))) := by
  rw [exec_pha, push8_of_unmapped s.ac hp, Res.raised_outcome]

/-- SP after a push, in numbers (R28). -/
theorem ofNat_toNat_add_255 (v : Byte) : BitVec.ofNat 8 ((v.toNat + 255) % 256) = v - 1 :=
  (ofNat_toNat_add v 255).trans (sub_one_eq_add_255 v).symm

/-- Settles O51: the push of AC by what it leaves, or its fault. -/
theorem phaPushesTheAccumulator : Obligations.PhaPushesTheAccumulator := by
  intro s a ha
  obtain rfl : a = stackAddr s.sp := ha.trans (ofNat_stack_toNat s.sp)
  refine ⟨rfl, fun p hp => ?_, fun hp => ?_⟩
  · rw [ofNat_toNat_add_255]
    exact ⟨_, exec_pha_of_covered hp, State.pushDone_storesByte s.ac hp, s.pushDone_eq p s.ac⟩
  · exact ⟨_, exec_pha_of_unmapped hp, s.enterFault_endsFaulted _, s.enterFault_bus _⟩

/-! ## PLA -/

theorem exec_pla_of_covered {s : State} {p : Place} (hp : route s.platform (stackAddr (s.sp + 1)) = some p) :
    exec .pla s = .next (putReg .ac (s.answer p) (s.pullDone p)) := by
  rw [exec_pla, pull8_eq_pullDone hp, Res.ok_andThen, Res.ok_outcome]

theorem exec_pla_of_unmapped {s : State} (hp : route s.platform (stackAddr (s.sp + 1)) = none) :
    exec .pla s = .next ((s.setReg .sp (s.sp + 1)).enterFault (.busFault (.read (stackAddr (s.sp + 1))))) := by
  rw [exec_pla, pull8_of_unmapped hp, Res.raised_andThen, Res.raised_outcome]

/-- Settles O52: the pull by what it leaves, and then AC takes the byte and Z and N reflect it; or the fault of the read, which
finds SP already raised. -/
theorem plaPullsTheAccumulator : Obligations.PlaPullsTheAccumulator := by
  intro s a ha
  obtain rfl : a = stackAddr (s.sp + 1) := ha.trans (ofNat_stack_toNat_add s.sp 1)
  have hsp : BitVec.ofNat 8 ((s.sp.toNat + 1) % 256) = s.sp + 1 := ofNat_toNat_add s.sp 1
  refine ⟨rfl, fun p hp => ?_, fun hp => ?_⟩
  · refine ⟨_, exec_pla_of_covered hp, putReg_reflectsZN .ac _ _, ?_, ?_⟩
    · exact putReg_flagsKept .ac (s.answer p) (s.pullDone p)
    · rw [hsp, putReg_eq, s.pullDone_eq p]
      rfl
  · exact ⟨_, exec_pla_of_unmapped hp, State.enterFault_endsFaulted _ _, State.enterFault_bus _ _⟩

/-! ## TAX, TAY, TXA, TYA and TXS -/

/-- The four transfers that set flags share one meaning: the destination takes the source. -/
theorem exec_transfer {i : Instr} {source dest : Reg} {op : Byte}
    (h : (i, source, dest, op) ∈ [(Instr.tax, Reg.ac, Reg.x, (0xAA : Byte)), (.tay, .ac, .y, 0xA8), (.txa, .x, .ac, 0x8A),
      (.tya, .y, .ac, 0x98)]) (s : State) :
    i.opcode = op ∧ exec i s = .next (putReg dest (s.reg source) s) := by
  simp only [List.mem_cons, List.not_mem_nil, or_false, Prod.mk.injEq] at h
  obtain ⟨rfl, rfl, rfl, rfl⟩ | ⟨rfl, rfl, rfl, rfl⟩ | ⟨rfl, rfl, rfl, rfl⟩ | ⟨rfl, rfl, rfl, rfl⟩ := h
  · exact ⟨rfl, exec_tax s⟩
  · exact ⟨rfl, exec_tay s⟩
  · exact ⟨rfl, exec_txa s⟩
  · exact ⟨rfl, exec_tya s⟩

/-- Settles O41: the destination takes the source, Z and N reflect it, and nothing else moves. -/
theorem transfersCopyAndSetFlags : Obligations.TransfersCopyAndSetFlags := by
  intro i s source dest op h
  obtain ⟨hop, he⟩ := exec_transfer h s
  exact ⟨hop, _, he, putReg_reflectsZN dest _ s, putReg_flagsKept dest _ s, putReg_eq dest _ s⟩

/-- Settles O42: SP is written alone, without `setZN` (D8). -/
theorem txsWritesNoFlag : Obligations.TxsWritesNoFlag := ⟨rfl, exec_txs⟩

end Sys2Proof.Machine
end

section
/-! PROOFS. Flags, NOP and HLT (48_flag_nop_halt.md R135 to R141): the write of one flag, a Step on an instruction of one byte,
and the run state HALTED as the end of a run. -/

namespace Sys2Proof.Machine

/-! ## CLC, SEC, CLI, SEI and CLD -/

theorem State.setFlag_flagsKept (s : State) (f : Flag) (b : Bool) : FlagsKept [f] s.sr (s.setFlag f b).sr := by
  intro g hg
  rw [State.setFlag_sr, flag_putFlag, if_neg (mt List.mem_singleton.2 hg)]

/-- The five flag instructions share one meaning: the named flag takes its value. -/
theorem exec_flagWrite {i : Instr} {f : Flag} {b : Bool} {op : Byte}
    (h : (i, f, b, op) ∈ [(Instr.clc, Flag.C, false, (0x18 : Byte)), (.sec, .C, true, 0x38), (.cli, .I, false, 0x58),
      (.sei, .I, true, 0x78), (.cld, .D, false, 0xD8)]) (s : State) :
    i.opcode = op ∧ exec i s = .next (s.setFlag f b) := by
  simp only [List.mem_cons, List.not_mem_nil, or_false, Prod.mk.injEq] at h
  obtain ⟨rfl, rfl, rfl, rfl⟩ | ⟨rfl, rfl, rfl, rfl⟩ | ⟨rfl, rfl, rfl, rfl⟩ | ⟨rfl, rfl, rfl, rfl⟩ | ⟨rfl, rfl, rfl, rfl⟩ := h
  · exact ⟨rfl, exec_clc s⟩
  · exact ⟨rfl, exec_sec s⟩
  · exact ⟨rfl, exec_cli s⟩
  · exact ⟨rfl, exec_sei s⟩
  · exact ⟨rfl, exec_cld s⟩

/-- Settles O43: the named flag takes its value, every other flag is kept, and SR is the one field written. -/
theorem flagInstructionsWriteOneBit : Obligations.FlagInstructionsWriteOneBit := by
  intro i s f b op h
  obtain ⟨hop, he⟩ := exec_flagWrite h s
  have hflag : flag (s.setFlag f b).sr f = b := by rw [State.setFlag_sr, flag_putFlag, if_pos rfl]
  exact ⟨hop, _, he, hflag, s.setFlag_flagsKept f b, rfl⟩

/-! ## A Step on an instruction of one byte -/

/-- A read does not look at the latch. -/
theorem memRead_setLatch {s t : State} {a : Address} {v : Byte} (l : Latch) (h : memRead a s = .ok v t) :
    memRead a (s.setLatch l) = .ok v (t.setLatch l) := by
  obtain ⟨p, hp, rfl, rfl⟩ := memRead_ok h
  exact memRead_of_route hp

theorem memRead_sameButBus {s t : State} {a : Address} {v : Byte} (h : memRead a s = .ok v t) : SameButBus s t := by
  obtain ⟨p, -, -, rfl⟩ := memRead_ok h
  exact SameButBus.readDone s a p

/-- An opcode byte that asks for no operand is the whole fetch (R53). -/
theorem fetch_of_f1 {s t : State} {op : Byte} {i : Instr} (hm : memRead s.pc s = .ok op t)
    (hd : descriptor op = some (.f1 i)) : fetch s = .ok i (t.setLatch (.decoded s.pc op i)) := by
  obtain ⟨hpc, -⟩ := (memRead_sameButBus hm).fields
  rw [fetch, memRead_setLatch _ hm, Res.ok_andThen]
  simp only [hd, fetchOperand, latchDecoded, State.setLatch_pc, hpc]
  rfl

theorem observe_of_no_monitor {s : State} (i : Instr) (h : s.monitor = none) : observe i s = s := by
  simp only [observe, h]

/-- The advance over one byte, in numbers (R11). -/
theorem ofNat_toNat_add_one (w : Address) : BitVec.ofNat 16 ((w.toNat + 1) % 65536) = w + 1 :=
  BitVec.eq_of_toNat_eq (by rw [BitVec.toNat_ofNat, Nat.mod_mod, BitVec.toNat_add]; rfl)

/-- A Step without a monitor on an instruction of one byte runs it at the state where that byte has been read and `pc` stands
one on (R55). -/
theorem step_of_f1 {s t : State} {op : Byte} {i : Instr} (hw : s.platform.wf = true) (hr : s.run = .running)
    (hmon : s.monitor = none) (hm : memRead s.pc s = .ok op t) (hd : descriptor op = some (.f1 i)) (hlen : i.length = 1) :
    step s = endStep (exec i
      { s with pc := BitVec.ofNat 16 ((s.pc.toNat + 1) % 65536), latch := .decoded s.pc op i, bus := t.bus }) := by
  rw [step_of_fetch hw hr (fetch_of_f1 hm hd), ofNat_toNat_add_one]
  obtain ⟨b, rfl⟩ : ∃ b, t = { s with bus := b } := ⟨t.bus, memRead_sameButBus hm⟩
  rw [observe_of_no_monitor i, advance, hlen]
  · rfl
  · exact hmon

/-! ## NOP and HLT -/

/-- Settles O44: the meaning of NOP is the identity, so a Step on it leaves what fetch and advance leave. -/
theorem nopOnlyAdvances : Obligations.NopOnlyAdvances := by
  refine ⟨rfl, exec_nop, fun s t hw hr hmon hm => ?_⟩
  rw [step_of_f1 (i := .nop) hw hr hmon hm rfl rfl, exec_nop]
  rfl

/-- HALTED is terminal (R24, R141). -/
theorem step_of_halted {s : State} (hw : s.platform.wf = true) (hr : s.run = .halted) : step s = .fault .haltedCore := by
  rw [step, if_pos hw]
  simp only [hr]

/-- Settles O45: a Step on HLT leaves what fetch and advance leave, the halt latch with X and the run in HALTED, where no Step
is taken. -/
theorem hltEndsTheRun : Obligations.HltEndsTheRun := by
  refine ⟨rfl, exec_hlt, fun s t hw hr hmon hm => ⟨_, ?_, step_of_halted ?_ ?_, rfl⟩⟩
  · rw [step_of_f1 (i := .hlt) hw hr hmon hm rfl rfl, exec_hlt]
    rfl
  · exact hw
  · rfl

end Sys2Proof.Machine
end

section
/-! PROOFS. Encoding (30_encoding.md R50 to R60): a row of the opcode table and the instructions it makes carry the same opcode
byte, so that `decode` and `encode` undo each other; and the table in numbers. -/

namespace Sys2Proof

open Laws.Rebuilt (rebuild)

/-! ## Decoding the encoding -/

/-- The operand bytes of a form fill its mode's length (R51). -/
theorem Form.length_operandBytes (fm : Form) : fm.operandBytes.length + 1 = fm.mode.length := by
  cases fm with
  | memory f => cases f <;> rfl
  | _ => rfl

theorem length_encode (i : Instr) : (encode i).length = i.length := i.form.length_operandBytes

open Laws.Rebuilt in
/-- The descriptor of an instruction's opcode byte rebuilds it from its operand bytes (R52, R53). -/
theorem rebuilt : ∀ i : Instr, Statement i
  | .adcImm n => adcImm n | .adcZp n => adcZp n | .adcZpx n => adcZpx n | .adcAbs w => adcAbs w | .adcAbx w => adcAbx w
  | .adcAby w => adcAby w | .adcInx n => adcInx n | .adcIny n => adcIny n | .sbcImm n => sbcImm n | .sbcZp n => sbcZp n
  | .sbcZpx n => sbcZpx n | .sbcAbs w => sbcAbs w | .sbcAbx w => sbcAbx w | .sbcAby w => sbcAby w | .sbcInx n => sbcInx n
  | .sbcIny n => sbcIny n | .andImm n => andImm n | .andZp n => andZp n | .andZpx n => andZpx n | .andAbs w => andAbs w
  | .andAbx w => andAbx w | .andAby w => andAby w | .andInx n => andInx n | .andIny n => andIny n | .oraImm n => oraImm n
  | .oraZp n => oraZp n | .oraZpx n => oraZpx n | .oraAbs w => oraAbs w | .oraAbx w => oraAbx w | .oraAby w => oraAby w
  | .oraInx n => oraInx n | .oraIny n => oraIny n | .eorImm n => eorImm n | .eorZp n => eorZp n | .eorZpx n => eorZpx n
  | .eorAbs w => eorAbs w | .eorAbx w => eorAbx w | .eorAby w => eorAby w | .eorInx n => eorInx n | .eorIny n => eorIny n
  | .aslAcc => aslAcc | .aslZp n => aslZp n | .aslZpx n => aslZpx n | .aslAbs w => aslAbs w | .aslAbx w => aslAbx w
  | .lsrAcc => lsrAcc | .lsrZp n => lsrZp n | .lsrZpx n => lsrZpx n | .lsrAbs w => lsrAbs w | .lsrAbx w => lsrAbx w
  | .rolAcc => rolAcc | .rolZp n => rolZp n | .rolZpx n => rolZpx n | .rolAbs w => rolAbs w | .rolAbx w => rolAbx w
  | .rorAcc => rorAcc | .rorZp n => rorZp n | .rorZpx n => rorZpx n | .rorAbs w => rorAbs w | .rorAbx w => rorAbx w
  | .cmpImm n => cmpImm n | .cmpZp n => cmpZp n | .cmpZpx n => cmpZpx n | .cmpAbs w => cmpAbs w | .cmpAbx w => cmpAbx w
  | .cmpAby w => cmpAby w | .cmpInx n => cmpInx n | .cmpIny n => cmpIny n | .cpxImm n => cpxImm n | .cpxZp n => cpxZp n
  | .cpxAbs w => cpxAbs w | .cpyImm n => cpyImm n | .cpyZp n => cpyZp n | .cpyAbs w => cpyAbs w | .incZp n => incZp n
  | .incZpx n => incZpx n | .incAbs w => incAbs w | .incAbx w => incAbx w | .decZp n => decZp n | .decZpx n => decZpx n
  | .decAbs w => decAbs w | .decAbx w => decAbx w | .inx => inx | .dex => dex | .iny => iny | .dey => dey
  | .bcc n => bcc n | .bcs n => bcs n | .beq n => beq n | .bne n => bne n | .bmi n => bmi n | .bpl n => bpl n
  | .jmp w => jmp w | .jsr w => jsr w | .rts => rts | .pha => pha | .pla => pla | .tax => tax | .tay => tay | .txa => txa
  | .tya => tya | .txs => txs | .clc => clc | .sec => sec | .cli => cli | .sei => sei | .cld => cld | .nop => nop
  | .hlt => hlt | .ldaImm n => ldaImm n | .ldaZp n => ldaZp n | .ldaZpx n => ldaZpx n | .ldaAbs w => ldaAbs w
  | .ldaAbx w => ldaAbx w | .ldaAby w => ldaAby w | .ldaInx n => ldaInx n | .ldaIny n => ldaIny n | .ldxImm n => ldxImm n
  | .ldxZp n => ldxZp n | .ldxZpy n => ldxZpy n | .ldxAbs w => ldxAbs w | .ldxAby w => ldxAby w | .ldyImm n => ldyImm n
  | .ldyZp n => ldyZp n | .ldyZpx n => ldyZpx n | .ldyAbs w => ldyAbs w | .ldyAbx w => ldyAbx w | .staZp n => staZp n
  | .staZpx n => staZpx n | .staAbs w => staAbs w | .staAbx w => staAbx w | .staAby w => staAby w | .staInx n => staInx n
  | .staIny n => staIny n | .stxZp n => stxZp n | .stxZpy n => stxZpy n | .stxAbs w => stxAbs w | .styZp n => styZp n
  | .styZpx n => styZpx n | .styAbs w => styAbs w

/-- Bytes that a descriptor rebuilds an instruction from decode to it, whatever follows them. -/
theorem decode_of_rebuild {op : Byte} {d : Descriptor} {operand : List Byte} {i : Instr} (rest : List Byte)
    (hd : descriptor op = some d) (hr : rebuild d operand = some i) : decode (op :: operand ++ rest) = .ok (i, rest) := by
  unfold rebuild at hr
  split at hr <;> simp_all [decode]

/-- Settles O1: the descriptor of the opcode byte rebuilds the instruction from the operand bytes. -/
theorem decodeOfEncodeIsTheInstruction : Obligations.DecodeOfEncodeIsTheInstruction := by
  intro i rest
  obtain ⟨d, hd, hr⟩ := Option.bind_eq_some_iff.1 (rebuilt i)
  exact decode_of_rebuild rest hd hr

/-! ## Encoding what was decoded -/

/-- What `decode` accepts: an opcode byte with a descriptor, the operand bytes it rebuilds the instruction from, and the rest. -/
theorem decode_ok {bytes rest : List Byte} {i : Instr} (h : decode bytes = .ok (i, rest)) :
    ∃ op d operand, bytes = op :: operand ++ rest ∧ descriptor op = some d ∧ rebuild d operand = some i := by
  cases bytes with
  | nil => cases h
  | cons op tail =>
    simp only [decode] at h
    split at h <;> cases h
    · exact ⟨op, _, [], rfl, ‹_›, rfl⟩
    · exact ⟨op, _, [_], rfl, ‹_›, rfl⟩
    · exact ⟨op, _, [_, _], rfl, ‹_›, rfl⟩

/-- A row of the table makes instructions with its own opcode byte and with the operand bytes it is given. -/
def Descriptor.Encodes (op : Byte) : Descriptor → Prop
  | .f1 i    => encode i = [op]
  | .f2 make => ∀ n, encode (make n) = [op, n]
  | .f3 make => ∀ w, encode (make w) = [op, lo w, hi w]

theorem opcodeRow_encodes (k : Nat) : ∀ row ∈ opcodeRow k, row.2.Encodes row.1 := by
  refine List.forall_iff_forall_mem.1 ?_
  unfold opcodeRow
  split
  case h_17 => trivial
  all_goals and_intros <;> dsimp only [List.Forall, Descriptor.Encodes] <;> intros <;> rfl

theorem descriptor_encodes {op : Byte} {d : Descriptor} (h : descriptor op = some d) : d.Encodes op :=
  opcodeRow_encodes _ _ (lookupOpcode_mem h)

/-- Decoding is injective on the bytes it consumes. -/
theorem encode_of_rebuild {op : Byte} {d : Descriptor} {operand : List Byte} {i : Instr} (hd : descriptor op = some d)
    (hr : rebuild d operand = some i) : encode i = op :: operand := by
  have he := descriptor_encodes hd
  unfold rebuild at hr
  split at hr <;> cases hr
  · exact he
  · exact he _
  · rw [he, lo_join, hi_join]

theorem eq_encode_append_of_decode {bytes rest : List Byte} {i : Instr} (h : decode bytes = .ok (i, rest)) :
    bytes = encode i ++ rest := by
  obtain ⟨op, d, operand, rfl, hd, hr⟩ := decode_ok h
  rw [encode_of_rebuild hd hr]

/-- Settles O2: the bytes decoded are an opcode byte and operand bytes that its row encodes again. -/
theorem decodedBytesAreTheEncoding : Obligations.DecodedBytesAreTheEncoding := by
  intro bytes rest i h
  obtain rfl := eq_encode_append_of_decode h
  exact ⟨rfl, by rw [List.length_append, length_encode]⟩

/-! ## The table -/

/-- Settles O3: each word evaluated. -/
theorem exampleWordsDecode : Obligations.ExampleWordsDecode := ⟨rfl, rfl, rfl, rfl, rfl, rfl, rfl, rfl, rfl, rfl⟩

/-- The table lists its opcode bytes in rising order, row after row of the grid. -/
theorem opcodeTable_rising : (opcodeTable.map Prod.fst).IsChain (· < ·) := by decide +kernel

theorem opcodeTable_nodup : (opcodeTable.map Prod.fst).Nodup :=
  (List.isChain_iff_pairwise.1 opcodeTable_rising).imp fun h => BitVec.ne_of_lt h

theorem descriptor_eq_none_iff : ∀ op : Byte, descriptor op = none ↔ op ∈ Machine.illegalOpcodes := by decide +kernel

theorem leftOutOpcodes_illegal : ∀ op ∈ Machine.leftOutOpcodes, op ∈ Machine.illegalOpcodes := by decide

/-- Settles O4: the table counted, and its bytes compared with the list of R57. -/
theorem legalOpcodesAreExactlyTheTable : Obligations.LegalOpcodesAreExactlyTheTable :=
  ⟨rfl, opcodeTable_nodup, descriptor_eq_none_iff, leftOutOpcodes_illegal⟩

end Sys2Proof
end

section
/-! PROOFS. How an instruction ends (60_exceptions.md R166), read off `exec_effect` once, with its seven faults as one: by which
operation it completes, or with what changed and why it faults. -/

namespace Sys2Proof.Machine

/-! ## Inversions of the stack primitives -/

theorem push8_ok {v : Byte} {s t : State} (h : push8 v s = .ok () t) :
    ∃ p, route s.platform (stackAddr s.sp) = some p ∧ t = s.pushDone p v := by
  obtain ⟨p, hp, h'⟩ | ⟨-, h'⟩ := push8_cases v s
  · rw [h] at h'
    exact ⟨p, hp, (Res.ok.inj h').2⟩
  · simp [h] at h'

theorem push8_raised {v : Byte} {s t : State} (h : push8 v s = .raised t) :
    route s.platform (stackAddr s.sp) = none ∧ t = s.enterFault (.busFault (.write (stackAddr s.sp) v)) := by
  obtain ⟨p, -, h'⟩ | ⟨hp, h'⟩ := push8_cases v s
  · simp [h] at h'
  · rw [h] at h'
    exact ⟨hp, Res.raised.inj h'⟩

theorem pull8_ok {v : Byte} {s t : State} (h : pull8 s = .ok v t) :
    ∃ p, route s.platform (stackAddr (s.sp + 1)) = some p ∧ t = s.pullDone p := by
  obtain ⟨p, hp, h'⟩ | ⟨-, h'⟩ := pull8_cases s
  · rw [h] at h'
    exact ⟨p, hp, (Res.ok.inj h').2⟩
  · simp [h] at h'

theorem pull8_raised {s t : State} (h : pull8 s = .raised t) :
    route s.platform (stackAddr (s.sp + 1)) = none ∧
      t = (s.setReg .sp (s.sp + 1)).enterFault (.busFault (.read (stackAddr (s.sp + 1)))) := by
  obtain ⟨p, -, h'⟩ | ⟨hp, h'⟩ := pull8_cases s
  · simp [h] at h'
  · rw [h] at h'
    exact ⟨hp, Res.raised.inj h'⟩

theorem SameButBus.exists_bus {s t : State} (h : SameButBus s t) : ∃ b, t = { s with bus := b } := ⟨t.bus, h⟩

/-! ## An instruction that completes -/

/-- The control state and the platform are as before: what every instruction but HLT keeps when no fault is raised. -/
structure KeepsControl (s t : State) : Prop where
  run         : t.run = s.run
  latch       : t.latch = s.latch
  haltLatch   : t.haltLatch = s.haltLatch
  faultRecord : t.faultRecord = s.faultRecord
  platform    : t.platform = s.platform
  missed      : t.missed = s.missed
  monitor     : t.monitor = s.monitor

/-- A state that differs from `s` in registers, flags, memory and the bus alone. -/
theorem KeepsControl.of_with (s : State) (pc : Address) (ac x y sp sr : Byte) (mem : Memory) (disturbed : List Nat)
    (bus : List Access) :
    KeepsControl s { s with pc := pc, ac := ac, x := x, y := y, sp := sp, sr := sr, mem := mem, disturbed := disturbed
                            bus := bus } :=
  ⟨rfl, rfl, rfl, rfl, rfl, rfl, rfl⟩

/-- A read instruction acts on AC, X, Y and SR alone. -/
theorem ReadAct.act_eq {m : Mnemonic} {act : Byte → State → State} (h : ReadAct m act) (v : Byte) (s : State) :
    act v s = { s with ac := (act v s).ac, x := (act v s).x, y := (act v s).y, sr := (act v s).sr } := by
  cases h <;> rfl

/-- After its write a read-modify-write sets flags alone. -/
theorem UpdateAct.flags_eq {m : Mnemonic} {compute : Byte → State → Byte} {flags : Byte → Byte → State → State}
    (h : UpdateAct m compute flags) (old new : Byte) (s : State) :
    flags old new s = { s with sr := (flags old new s).sr } := by
  cases h <;> rfl

/-- A branch writes `pc` and nothing else, taken or not. -/
theorem State.ite_setPc (s : State) (c : Prop) [Decidable c] (t : Address) :
    (if c then s.setPc t else s) = s.setPc (if c then t else s.pc) := by
  split <;> rfl

/-- An instruction with no access moves registers and flags alone, but for HLT. -/
theorem PlainAct.act_eq {i : Instr} {act : State → State} (h : PlainAct i act) (hi : i ≠ .hlt) (s : State) :
    act s = { s with pc := (act s).pc, ac := (act s).ac, x := (act s).x, y := (act s).y, sp := (act s).sp
                     sr := (act s).sr } := by
  cases h with
  | hlt => exact absurd rfl hi
  | bcc _ | bcs _ | beq _ | bne _ | bmi _ | bpl _ => simp only [State.ite_setPc]; rfl
  | _ => rfl

theorem PlainAct.keepsControl {i : Instr} {act : State → State} (h : PlainAct i act) (hi : i ≠ .hlt) (s : State) :
    KeepsControl s (act s) := by
  rw [h.act_eq hi]
  exact .of_with ..

/-! ## Memory -/

/-- What memory holds, and which ROMs a write has reached, are the same in both states. -/
def SameMemory (s t : State) : Prop := t.mem = s.mem ∧ t.disturbed = s.disturbed

/-- Memory after any number of delivered writes. -/
inductive MemoryWrites (s : State) : State → Prop where
  | none {t : State} (h : SameMemory s t) : MemoryWrites s t
  | write {t u : State} {a : Address} {p : Place} {v : Byte} (ht : MemoryWrites s t) (h : SameMemory (t.writeDone a p v) u) :
      MemoryWrites s u

theorem MemoryWrites.congr {s t u : State} (h : MemoryWrites s t) (k : SameMemory t u) : MemoryWrites s u := by
  cases h with
  | none h => exact .none ⟨k.1.trans h.1, k.2.trans h.2⟩
  | write ht h => exact .write ht ⟨k.1.trans h.1, k.2.trans h.2⟩

theorem MemoryWrites.one {s t u : State} {a : Address} {p : Place} {v : Byte} (ht : SameMemory s t)
    (h : SameMemory (t.writeDone a p v) u) : MemoryWrites s u := .write (.none ht) h

/-! ## An instruction that faults -/

/-- The state `u` in which instruction `i`, begun in `s`, raises a fault (R166): SP has moved only in PLA, RTS and JSR, and memory
has been written only by JSR. -/
structure FaultFrame (i : Instr) (s u : State) : Prop where
  same : u = { s with sp := u.sp, mem := u.mem, disturbed := u.disturbed, bus := u.bus }
  sp   : i.mnemonic ∉ [.PLA, .RTS, .JSR] → u.sp = s.sp
  mem  : SameMemory s u ∨ ((∃ w, i = .jsr w) ∧ MemoryWrites s u)

/-- Which fault instruction `i` can raise from `s`, and why (R160): no binding covers an address, or the indirect,X pointer
leaves page 0. -/
structure FaultReason (i : Instr) (s : State) (c : Cause) : Prop where
  kind : (∃ m, c = .busFault m) ∨ (c = .indirectXPageCross ∧ ∃ n, i.form = .memory (.indirectX n))
  why  : (∃ a, route s.platform a = none) ∨ ∃ n, i.form = .memory (.indirectX n) ∧ n + s.x = 0xFF

theorem SameButBus.faultFrame {s u : State} (h : SameButBus s u) (i : Instr) : FaultFrame i s u := by
  obtain ⟨b, rfl⟩ := h.exists_bus
  exact ⟨rfl, fun _ => rfl, .inl ⟨rfl, rfl⟩⟩

theorem FaultReason.of_unmapped {i : Instr} {s : State} {a : Address} (m : Miss) (h : route s.platform a = none) :
    FaultReason i s (.busFault m) := ⟨.inl ⟨m, rfl⟩, .inl ⟨a, h⟩⟩

theorem memRead16_raised_unmapped {a : Address} {s t : State} (h : memRead16 a s = .raised t) :
    ∃ b, route s.platform b = none := by
  cases hp : route s.platform a with
  | none => exact ⟨a, hp⟩
  | some p =>
    cases hq : route s.platform (a + 1) with
    | none => exact ⟨a + 1, hq⟩
    | some q => simp [memRead16_of_route hp hq] at h

/-- Why the resolver raises a fault (R71, R162). -/
theorem ea_raised_why {f : MemForm} {s t : State} (h : ea f s = .raised t) :
    (∃ a, route s.platform a = none) ∨ ∃ n, f = .indirectX n ∧ n + s.x = 0xFF := by
  cases f with
  | indirectX n =>
    by_cases hn : n + s.x = 0xFF
    · exact .inr ⟨n, rfl, hn⟩
    · rw [ea_indirectX_of_ne hn] at h
      exact .inl (memRead16_raised_unmapped h)
  | indirectY n =>
    obtain h | ⟨_, _, -, h⟩ := Res.andThen_eq_raised.1 h
    · exact .inl (memRead16_raised_unmapped h)
    · cases h
  | _ => cases h

theorem AccessFault.reason {i : Instr} {f : MemForm} {g : Cause} {s u : State} (h : AccessFault f g s u)
    (hf : i.form = .memory f) : FaultReason i s g := by
  constructor
  · obtain hm | ⟨rfl, n, rfl⟩ := h.kind
    · exact .inl hm
    · exact .inr ⟨rfl, n, hf⟩
  · obtain hea | ⟨a, -, ha⟩ := h.why
    · obtain ha | ⟨n, rfl, hn⟩ := ea_raised_why hea
      · exact .inl ha
      · exact .inr ⟨n, hf, hn⟩
    · obtain ⟨b, rfl⟩ := h.same.exists_bus
      exact .inl ⟨a, ha⟩

/-! ## The endings -/

/-- How an instruction `i` begun in `s` ends: by the operation that made the next state, or in FAULTED. `b` is the bus after the
reads before the operation. -/
inductive Ending (i : Instr) (s : State) : State → Prop where
  | read {m : Mnemonic} {act : Byte → State → State} (v : Byte) (b : List Access) (hm : i.mnemonic = m) (ha : ReadAct m act) :
      Ending i s (act v { s with bus := b })
  | store {m : Mnemonic} {f : MemForm} {r : Reg} (b : List Access) (a : Address) (p : Place) (v : Byte)
      (hf : i.form = .memory f) (hm : i.mnemonic = m) (ha : StoreAct m r) :
      Ending i s (State.writeDone { s with bus := b } a p v)
  | update {m : Mnemonic} {f : MemForm} {compute : Byte → State → Byte} {flags : Byte → Byte → State → State}
      (b : List Access) (a : Address) (p : Place) (old new : Byte) (hf : i.form = .memory f) (hm : i.mnemonic = m)
      (ha : UpdateAct m compute flags) : Ending i s (flags old new (State.writeDone { s with bus := b } a p new))
  | shiftAcc {m : Mnemonic} {result : Byte → Bool → Byte} {out : Byte → Bool} (r : Byte) (hf : i.form = .accumulator)
      (hm : i.mnemonic = m) (ha : ShiftAct m result out) : Ending i s (shiftFlags out s.ac r (s.setReg .ac r))
  | plain {act : State → State} (ha : PlainAct i act) : Ending i s (act s)
  | push (p : Place) (hi : i = .pha) : Ending i s (s.pushDone p s.ac)
  | pull (p : Place) (v : Byte) (hi : i = .pla) : Ending i s (putReg .ac v (s.pullDone p))
  | call (w : Address) (p q : Place) (hi : i = .jsr w) : Ending i s (s.callDone w p q)
  | ret (p q : Place) (t : Address) (hi : i = .rts) : Ending i s (((s.pullDone p).pullDone q).setPc t)
  | faulted {u : State} {c : Cause} (hf : FaultFrame i s u) (hr : FaultReason i s c) : Ending i s (u.enterFault c)

theorem exec_ending {i : Instr} {s t : State} (h : exec i s = .next t) : Ending i s t := by
  cases exec_effect h with
  | read _ hm ha _ hs =>
    obtain ⟨b, rfl⟩ := hs.exists_bus
    exact .read _ b hm ha
  | store hf hm ha _ _ hs =>
    obtain ⟨b, rfl⟩ := hs.exists_bus
    exact .store b _ _ _ hf hm ha
  | update hf hm ha _ _ hs =>
    obtain ⟨b, rfl⟩ := hs.exists_bus
    exact .update _ _ _ _ _ hf hm ha
  | faulted hf _ hg => exact .faulted (hg.same.faultFrame i) (hg.reason hf)
  | shiftAcc hf hm ha => exact .shiftAcc _ hf hm ha
  | plain ha => exact .plain ha
  | @push p hi _ => exact .push p hi
  | pushFaulted _ hp => exact .faulted ((SameButBus.refl s).faultFrame i) (.of_unmapped _ hp)
  | @pull p hi _ => exact .pull p _ hi
  | pullFaulted hi hp => exact .faulted ⟨rfl, by simp [hi, Instr.mnemonic], .inl ⟨rfl, rfl⟩⟩ (.of_unmapped _ hp)
  | call hi ht hu =>
    obtain ⟨p, -, rfl⟩ := push8_ok ht
    obtain ⟨q, -, rfl⟩ := push8_ok hu
    exact .call _ p q hi
  | callFaulted _ ht =>
    obtain ⟨hp, rfl⟩ := push8_raised ht
    exact .faulted ((SameButBus.refl s).faultFrame i) (.of_unmapped _ hp)
  | callFaulted2 hi ht hu =>
    obtain ⟨p, -, rfl⟩ := push8_ok ht
    obtain ⟨hq, rfl⟩ := push8_raised hu
    rw [State.pushDone_platform] at hq
    have hwrite : MemoryWrites s (s.pushDone p (Sys2Proof.hi (s.pc - 1))) := .one (t := s) ⟨rfl, rfl⟩ ⟨rfl, rfl⟩
    refine .faulted ⟨?_, by simp [hi, Instr.mnemonic], (.inr ⟨⟨_, hi⟩, hwrite⟩)⟩ (.of_unmapped _ hq)
    rw [State.pushDone_bus]
    exact s.pushDone_eq p _
  | ret hi ht hu =>
    obtain ⟨p, -, rfl⟩ := pull8_ok ht
    obtain ⟨q, -, rfl⟩ := pull8_ok hu
    exact .ret p q _ hi
  | retFaulted hi ht =>
    obtain ⟨hp, rfl⟩ := pull8_raised ht
    exact .faulted ⟨rfl, by simp [hi, Instr.mnemonic], .inl ⟨rfl, rfl⟩⟩ (.of_unmapped _ hp)
  | retFaulted2 hi ht hu =>
    obtain ⟨p, -, rfl⟩ := pull8_ok ht
    obtain ⟨hq, rfl⟩ := pull8_raised hu
    exact .faulted ⟨rfl, by simp [hi, Instr.mnemonic], .inl ⟨rfl, rfl⟩⟩ (.of_unmapped _ hq)

/-! ## The control state -/

/-- What an instruction does to the control state: nothing, or what HLT does, or fault entry. -/
inductive ControlEnding (i : Instr) (s : State) : State → Prop where
  | completed {t : State} (hm : i.mnemonic ≠ .HLT) (h : KeepsControl s t) : ControlEnding i s t
  | halted (hi : i = .hlt) : ControlEnding i s { s with haltLatch := s.x, run := .halted }
  | faulted {u : State} {c : Cause} (hf : FaultFrame i s u) (hr : FaultReason i s c) : ControlEnding i s (u.enterFault c)

theorem PlainAct.controlEnding {i : Instr} {act : State → State} (h : PlainAct i act) (s : State) :
    ControlEnding i s (act s) := by
  by_cases hi : i = .hlt
  · subst hi
    cases h
    exact .halted rfl
  · refine .completed ?_ (h.keepsControl hi s)
    cases h with
    | hlt => exact absurd rfl hi
    | _ => simp [Instr.mnemonic]

theorem exec_control {i : Instr} {s t : State} (h : exec i s = .next t) : ControlEnding i s t := by
  cases exec_ending h with
  | read v b hm ha =>
    rw [ha.act_eq]
    exact .completed (by cases ha <;> simp [hm]) (.of_with ..)
  | store b a p v _ hm ha =>
    rw [State.writeDone_eq]
    exact .completed (by cases ha <;> simp [hm]) (.of_with ..)
  | update b a p old new _ hm ha =>
    rw [ha.flags_eq, State.writeDone_eq]
    exact .completed (by rcases ha with ⟨⟨⟩⟩ | _ | _ <;> simp [hm]) (.of_with ..)
  | shiftAcc r _ hm ha => exact .completed (by cases ha <;> simp [hm]) (.of_with ..)
  | plain ha => exact ha.controlEnding s
  | push p hi =>
    rw [State.pushDone_eq]
    exact .completed (by simp [hi, Instr.mnemonic]) (.of_with ..)
  | call w p q hi =>
    rw [State.callDone_eq]
    exact .completed (by simp [hi, Instr.mnemonic]) (.of_with ..)
  | pull p v hi | ret p q t hi => exact .completed (by simp [hi, Instr.mnemonic]) (.of_with ..)
  | faulted hf hr => exact .faulted hf hr

end Sys2Proof.Machine
end

section
/-! PROOFS. What every instruction keeps (10_state.md, 60_exceptions.md R166): the platform, the run
state and the fault record, by how the instruction ends; the flags, by the operation that wrote them. -/

namespace Sys2Proof.Machine

/-! ## The platform, the run state and the fault record -/

theorem exec_keeps {i : Instr} {s t : State} (h : exec i s = .next t) :
    t.platform = s.platform ∧ t.latch = s.latch ∧ t.monitor = s.monitor := by
  cases exec_control h with
  | completed _ h => exact ⟨h.platform, h.latch, h.monitor⟩
  | halted _ => exact ⟨rfl, rfl, rfl⟩
  | faulted hf _ =>
    rw [hf.same]
    exact ⟨rfl, rfl, rfl⟩

theorem exec_platform {i : Instr} {s t : State} (h : exec i s = .next t) : t.platform = s.platform := (exec_keeps h).1

theorem exec_monitor {i : Instr} {s t : State} (h : exec i s = .next t) : t.monitor = s.monitor := (exec_keeps h).2.2

theorem exec_run {i : Instr} {s t : State} (h : exec i s = .next t) :
    t.run = s.run ∨ (t.run = .halted ∧ i.mnemonic = .HLT) ∨ t.run = .faulted := by
  cases exec_control h with
  | completed _ h => exact .inl h.run
  | halted hi => exact .inr (.inl ⟨rfl, by rw [hi]; rfl⟩)
  | faulted _ _ => exact .inr (.inr rfl)

/-- Everything a Step leaves, in terms of the state `u` after Decode and the monitor, which is `s` but for the bus, the latch, `pc`
and what the monitor was shown: a fault entered there, or an instruction executed from there. -/
theorem step_from {s t : State} (h : step s = .next t) :
    ∃ u, u = { s with pc := u.pc, bus := u.bus, latch := u.latch, monitor := u.monitor } ∧
      ((∃ c, t = (u.enterFault c).setLatch .empty) ∨ ∃ i v, exec i u = .next v ∧ t = v.setLatch .empty) := by
  obtain ⟨-, -, ⟨u, hf, rfl⟩ | ⟨i, u, v, hf, hv, rfl⟩⟩ := step_cases h
  · obtain ⟨_, _, hf', -⟩ | ⟨w, c, hf', hw⟩ := fetch_cases s
    · simp [hf] at hf'
    · obtain rfl := Res.raised.inj (hf.symm.trans hf')
      refine ⟨w, ?_, .inl ⟨c, rfl⟩⟩
      rw [hw]
  · obtain ⟨_, _, hf', hw⟩ | ⟨_, _, hf', -⟩ := fetch_cases s
    · obtain ⟨rfl, rfl⟩ := Res.ok.inj (hf.symm.trans hf')
      refine ⟨_, ?_, .inr ⟨i, v, hv, rfl⟩⟩
      rw [observe_eq, hw]
      rfl
    · simp [hf] at hf'

theorem step_platform {s t : State} (h : step s = .next t) : t.platform = s.platform := by
  obtain ⟨u, hu, ht⟩ := step_from h
  have hplatform : u.platform = s.platform := by rw [hu]
  obtain ⟨c, rfl⟩ | ⟨i, v, hv, rfl⟩ := ht
  · exact hplatform
  · exact (exec_platform hv).trans hplatform

/-- Settles O19: read off the three endings of `exec_control`, and for a Step off Decode as well. -/
theorem instructionsKeepPlatformAndRunState : Obligations.InstructionsKeepPlatformAndRunState := by
  refine ⟨fun i s t h => ?_, fun _ _ => step_platform⟩
  obtain ⟨hplatform, hlatch, hmonitor⟩ := exec_keeps h
  exact ⟨hplatform, hlatch, hmonitor, exec_run h⟩

/-- A running core that an instruction leaves in FAULTED raised a fault in it. -/
theorem exec_faulted {i : Instr} {s t : State} (hr : s.run = .running) (h : exec i s = .next t) (ht : t.run = .faulted) :
    ∃ u c, t = u.enterFault c ∧ FaultFrame i s u := by
  cases exec_control h with
  | completed _ h => simp [h.run, hr] at ht
  | halted _ => cases ht
  | faulted hf _ => exact ⟨_, _, rfl, hf⟩

/-- Settles O20: what had changed when the fault was raised, and fault entry. -/
theorem faultInExecuteLeavesTheRest : Obligations.FaultInExecuteLeavesTheRest := by
  intro i s t hr h ht
  obtain ⟨u, c, rfl, hsame, hsp, hmem⟩ := exec_faulted hr h ht
  replace hmem : i.mnemonic ≠ .JSR → SameMemory s u := fun hm => hmem.resolve_right fun ⟨⟨w, hi⟩, _⟩ => hm (by rw [hi]; rfl)
  generalize u.sp = sp, u.mem = mem, u.disturbed = disturbed, u.bus = bus at hsame hsp hmem
  subst hsame
  exact ⟨rfl, rfl, rfl, rfl, rfl, rfl, rfl, rfl, hsp, hmem, c, rfl, rfl⟩

/-- Settles O22: neither reason of a fault is there. -/
theorem noFaultWhenEveryAddressIsMapped : Obligations.NoFaultWhenEveryAddressIsMapped := by
  intro i s hmap hx
  obtain ⟨t, h⟩ := exec_next i s
  refine ⟨t, h, ?_⟩
  cases exec_control h with
  | completed hm h => exact ⟨h.faultRecord, by rw [h.run, if_neg hm]⟩
  | halted hi => exact ⟨rfl, by rw [hi]; rfl⟩
  | faulted _ hr =>
    obtain ⟨a, ha⟩ | ⟨n, hf, hn⟩ := hr.why
    · simpa [State.mapped, ha] using hmap a
    · exact absurd hn (hx n hf)

/-! ## The flags -/

/-- The flags an instruction may write (R15 to R22). -/
def flagsWritten (m : Mnemonic) : List Flag :=
  (if m ∈ carryWriters then [.C] else []) ++ (if m ∈ znWriters then [.Z, .N] else []) ++
    (if m ∈ [.CLI, .SEI] then [.I] else []) ++ if m = .CLD then [.D] else []

theorem FlagsKept.refl (l : List Flag) (sr : Byte) : FlagsKept l sr sr := fun _ _ => rfl

theorem FlagsKept.of_sr_eq {l : List Flag} {a b c : Byte} (h : FlagsKept l b c) (hab : b = a) : FlagsKept l a c := hab ▸ h

theorem ReadAct.flagsKept {m : Mnemonic} {act : Byte → State → State} (h : ReadAct m act) (v : Byte) (s : State) :
    FlagsKept (flagsWritten m) s.sr (act v s).sr := by
  cases h with
  | adc => rw [adc_eq_takeResult (.refl s)]; exact takeResult_flagsKept _ _ s
  | sbc => rw [sbc_eq_takeResult (.refl s)]; exact takeResult_flagsKept _ _ s
  | and | ora | eor => rw [logic_eq_putReg (.refl s)]; exact putReg_flagsKept _ _ s
  | cmp | cpx | cpy => exact compareReg_flagsKept _ v s
  | lda | ldx | ldy => exact putReg_flagsKept _ v s

theorem ShiftAct.flagsKept {m : Mnemonic} {result : Byte → Bool → Byte} {out : Byte → Bool} (h : ShiftAct m result out)
    (old new : Byte) (s : State) : FlagsKept (flagsWritten m) s.sr (shiftFlags out old new s).sr := by
  cases h <;> exact shiftFlags_flagsKept _ old new s

theorem UpdateAct.flagsKept {m : Mnemonic} {compute : Byte → State → Byte} {flags : Byte → Byte → State → State}
    (h : UpdateAct m compute flags) (old new : Byte) (s : State) : FlagsKept (flagsWritten m) s.sr (flags old new s).sr := by
  cases h with
  | shift h => exact h.flagsKept old new s
  | inc | dec => exact setZN_flagsKept new s

theorem PlainAct.flagsKept {i : Instr} {act : State → State} (h : PlainAct i act) (s : State) :
    FlagsKept (flagsWritten i.mnemonic) s.sr (act s).sr := by
  cases h with
  | inx | dex | iny | dey | tax | tay | txa | tya => exact putReg_flagsKept _ _ s
  | clc | sec | cli | sei | cld => exact s.setFlag_flagsKept _ _
  | txs | nop | hlt | jmp _ => exact .refl _ _
  | bcc _ | bcs _ | beq _ | bne _ | bmi _ | bpl _ => simp only [State.ite_setPc]; exact .refl _ _

/-- SR moves only in the flags an instruction writes, in every next state. -/
theorem exec_flagsKept {i : Instr} {s t : State} (h : exec i s = .next t) :
    FlagsKept (flagsWritten i.mnemonic) s.sr t.sr := by
  cases exec_ending h with
  | read v b hm ha => exact hm ▸ ha.flagsKept v { s with bus := b }
  | store b a p v _ _ _ =>
    rw [State.writeDone_sr]
    exact .refl _ _
  | update b a p old new _ hm ha => exact (hm ▸ ha.flagsKept old new _).of_sr_eq (State.writeDone_sr ..)
  | shiftAcc r _ hm ha => exact hm ▸ ha.flagsKept _ r (s.setReg .ac r)
  | plain ha => exact ha.flagsKept s
  | push p _ =>
    rw [State.pushDone_eq]
    exact .refl _ _
  | pull p v hi => exact hi ▸ putReg_flagsKept .ac v (s.pullDone p)
  | call w p q _ =>
    rw [State.callDone_eq]
    exact .refl _ _
  | ret _ _ _ _ => exact .refl _ _
  | faulted hf _ =>
    rw [hf.same]
    exact .refl _ _

/-- Settles O16: a flag that is not among those an instruction writes is kept. -/
theorem flagsWrittenOnlyByTheirInstructions : Obligations.FlagsWrittenOnlyByTheirInstructions := by
  intro i s t h
  have hkept := exec_flagsKept h
  refine ⟨fun hc => hkept _ ?_, fun hzn => ⟨hkept _ ?_, hkept _ ?_⟩, fun hi => hkept _ ?_, fun hd => hkept _ ?_⟩ <;>
    simp_all [flagsWritten]

/-- No instruction writes B, U or V (R19, R20, R21). -/
theorem flagsWritten_fixed (m : Mnemonic) : .B ∉ flagsWritten m ∧ .U ∉ flagsWritten m ∧ .V ∉ flagsWritten m := by
  simp [flagsWritten]

/-- A Reset that ends RUNNING has written RESET_SR (R180). -/
theorem hostReset_running {s t : State} (h : hostReset s = .next t) (hr : t.run = .running) : t.sr = resetSr := by
  unfold hostReset at h
  split at h
  · obtain ⟨w, u, hread, -⟩ | ⟨u, c, hread, -⟩ := memRead16_onlyReads resetVector (s.setLatch .empty)
    · rw [hread] at h
      cases h
      rfl
    · rw [hread] at h
      cases h
      cases hr
  · cases h

/-- Settles O14: none of the three is among the flags an instruction writes, and RESET_SR gives them their values. -/
theorem noInstructionWritesBreakUnusedOverflow : Obligations.NoInstructionWritesBreakUnusedOverflow := by
  refine ⟨fun i s t h => ?_, fun s t h hr => ?_⟩
  · obtain ⟨hb, hu, hv⟩ := flagsWritten_fixed i.mnemonic
    exact ⟨exec_flagsKept h _ hb, exec_flagsKept h _ hu, exec_flagsKept h _ hv⟩
  · rw [hostReset_running h hr]
    exact ⟨rfl, rfl, rfl⟩

end Sys2Proof.Machine
end

section
/-! PROOFS. Registers and memory (10_state.md R11 to R13, 20_memory.md R44): which registers and which bytes of memory an
instruction may write. -/

namespace Sys2Proof.Machine

/-! ## The registers -/

/-- The 8-bit registers an instruction may write (R12, R13). -/
def regsWritten (i : Instr) : List Reg :=
  (if i.mnemonic ∈ [.ADC, .SBC, .AND, .ORA, .EOR, .LDA, .PLA, .TXA, .TYA] ∨ i.form = .accumulator then [.ac] else []) ++
    (if i.mnemonic ∈ [.LDX, .TAX, .INX, .DEX] then [.x] else []) ++
    (if i.mnemonic ∈ [.LDY, .TAY, .INY, .DEY] then [.y] else []) ++
    if i.mnemonic ∈ [.TXS, .PHA, .PLA, .JSR, .RTS] then [.sp] else []

/-- Every 8-bit register but those listed is the same in both states. -/
def RegsKept (l : List Reg) (s t : State) : Prop := ∀ r, r ∉ l → t.reg r = s.reg r

theorem RegsKept.of_eq {s t : State} (l : List Reg) (hac : t.ac = s.ac) (hx : t.x = s.x) (hy : t.y = s.y)
    (hsp : t.sp = s.sp) : RegsKept l s t := by
  intro r _
  cases r <;> assumption

theorem RegsKept.mono {l k : List Reg} {s t : State} (h : RegsKept l s t) (hlk : l ⊆ k) : RegsKept k s t :=
  fun r hr => h r (mt (@hlk r) hr)

theorem State.setReg_regsKept (r : Reg) (v : Byte) (s : State) : RegsKept [r] s (s.setReg r v) :=
  fun _ hq => s.reg_setReg_of_ne (List.ne_of_not_mem_cons hq) v

/-- Flags written after a register are no register. -/
theorem RegsKept.setSr {l : List Reg} {s t : State} (h : RegsKept l s t) (sr : Byte) : RegsKept l s (t.setSr sr) := by
  intro r hr
  rw [← h r hr]
  cases r <;> rfl

theorem putReg_regsKept (r : Reg) (v : Byte) (s : State) : RegsKept [r] s (putReg r v s) := (s.setReg_regsKept r v).setSr _

theorem ReadAct.regsKept {i : Instr} {m : Mnemonic} {act : Byte → State → State} (h : ReadAct m act) (hm : i.mnemonic = m)
    (v : Byte) (s : State) : RegsKept (regsWritten i) s (act v s) := by
  cases h with
  | adc => exact (s.setReg_regsKept .ac _).setSr _ |>.mono (by simp [regsWritten, hm])
  | sbc => exact (s.setReg_regsKept .ac _).setSr _ |>.mono (by simp [regsWritten, hm])
  | and | ora | eor | lda | ldx | ldy => exact (putReg_regsKept _ _ s).mono (by simp [regsWritten, hm])
  | cmp | cpx | cpy => exact .of_eq _ rfl rfl rfl rfl

theorem PlainAct.regsKept {i : Instr} {act : State → State} (h : PlainAct i act) (s : State) :
    RegsKept (regsWritten i) s (act s) := by
  cases h with
  | inx | dex | iny | dey | tax | tay | txa | tya => exact putReg_regsKept _ _ s
  | txs => exact s.setReg_regsKept .sp _
  | bcc _ | bcs _ | beq _ | bne _ | bmi _ | bpl _ => simp only [State.ite_setPc]; exact .of_eq _ rfl rfl rfl rfl
  | _ => exact .of_eq _ rfl rfl rfl rfl

/-- The stack primitives move SP alone. -/
theorem RegsKept.of_sp {s t : State} (hac : t.ac = s.ac) (hx : t.x = s.x) (hy : t.y = s.y) : RegsKept [.sp] s t := by
  intro r hr
  cases r with
  | sp => exact absurd List.mem_cons_self hr
  | _ => assumption

theorem State.pullDone_regsKept (s : State) (p : Place) : RegsKept [.sp] s (s.pullDone p) := .of_sp rfl rfl rfl

theorem RegsKept.trans {l : List Reg} {s t u : State} (h : RegsKept l s t) (k : RegsKept l t u) : RegsKept l s u :=
  fun r hr => (k r hr).trans (h r hr)

/-- A fault leaves AC, X and Y, and SP but in PLA, RTS and JSR. -/
theorem FaultFrame.regsKept {i : Instr} {s u : State} (h : FaultFrame i s u) : RegsKept (regsWritten i) s u := by
  obtain ⟨hsame, hsp, -⟩ := h
  by_cases hm : i.mnemonic ∈ [.PLA, .RTS, .JSR]
  · have hkept : RegsKept [.sp] s u := by
      rw [hsame]
      exact .of_sp rfl rfl rfl
    refine hkept.mono ?_
    simp only [List.mem_cons, List.not_mem_nil, or_false] at hm
    obtain hm | hm | hm := hm <;> simp [regsWritten, hm]
  · rw [hsame, hsp hm]
    exact .of_eq _ rfl rfl rfl rfl

/-- The 8-bit registers move only where an instruction writes them, in every next state. -/
theorem exec_regsKept {i : Instr} {s t : State} (h : exec i s = .next t) : RegsKept (regsWritten i) s t := by
  cases exec_ending h with
  | read v b hm ha => exact ha.regsKept hm v { s with bus := b }
  | store b a p v _ _ _ =>
    rw [State.writeDone_eq]
    exact .of_eq _ rfl rfl rfl rfl
  | update b a p old new _ _ ha =>
    rw [ha.flags_eq, State.writeDone_eq]
    exact .of_eq _ rfl rfl rfl rfl
  | shiftAcc r hf _ _ => exact (s.setReg_regsKept .ac r).setSr _ |>.mono (by simp [regsWritten, hf])
  | plain ha => exact ha.regsKept s
  | push p hi =>
    rw [State.pushDone_eq]
    exact hi ▸ .of_sp rfl rfl rfl
  | pull p v hi =>
    have hpull : RegsKept (regsWritten .pla) s (s.pullDone p) := (s.pullDone_regsKept p).mono (by decide)
    exact hi ▸ hpull.trans ((putReg_regsKept .ac v _).mono (by decide))
  | call w p q hi =>
    rw [State.callDone_eq]
    exact hi ▸ .of_sp rfl rfl rfl
  | ret p q t hi => exact hi ▸ RegsKept.of_sp rfl rfl rfl
  | faulted hf _ => exact hf.regsKept

/-- `pc` moves only in the branches and jumps, in every next state (R11). -/
theorem exec_pc {i : Instr} {s t : State} (h : exec i s = .next t)
    (hm : i.mnemonic ∉ [.BCC, .BCS, .BEQ, .BNE, .BMI, .BPL, .JMP, .JSR, .RTS]) : t.pc = s.pc := by
  cases exec_ending h with
  | read v b _ ha => rw [ha.act_eq]
  | store b a p v _ _ _ => rw [State.writeDone_eq]
  | update b a p old new _ _ ha => rw [ha.flags_eq, State.writeDone_eq]
  | plain ha =>
    cases ha with
    | bcc _ | bcs _ | beq _ | bne _ | bmi _ | bpl _ | jmp _ => simp [Instr.mnemonic] at hm
    | _ => rfl
  | push p _ => rw [State.pushDone_eq]
  | shiftAcc _ _ _ _ | pull _ _ _ => rfl
  | call w p q hi | ret p q t hi => simp [hi, Instr.mnemonic] at hm
  | faulted hf _ => rw [hf.same]; rfl

theorem exec_haltLatch {i : Instr} {s t : State} (h : exec i s = .next t) (hm : i.mnemonic ≠ .HLT) :
    t.haltLatch = s.haltLatch := by
  cases exec_control h with
  | completed _ h => exact h.haltLatch
  | halted hi => exact absurd (by rw [hi]; rfl) hm
  | faulted hf _ => rw [hf.same]; rfl

/-- Settles O17: an 8-bit register that is not among those an instruction writes is kept; `pc` and the halt latch likewise. -/
theorem registersWrittenOnlyByTheirInstructions : Obligations.RegistersWrittenOnlyByTheirInstructions := by
  intro i s t h
  have hkept := exec_regsKept h
  exact ⟨fun hm hf => hkept .ac (by simp_all [regsWritten]), fun hm => hkept .x (by simp_all [regsWritten]),
    fun hm => hkept .y (by simp_all [regsWritten]), fun hm => hkept .sp (by simp_all [regsWritten]), exec_pc h,
    exec_haltLatch h⟩

/-! ## Memory -/

/-- The instructions that may write memory (R44, R75). -/
def MayStore (i : Instr) : Prop :=
  i.mnemonic ∈ [.STA, .STX, .STY, .INC, .DEC, .ASL, .LSR, .ROL, .ROR, .PHA, .JSR] ∧ i.form ≠ .accumulator

/-- Memory moves only in the instructions that store, and there by delivered writes. -/
theorem exec_memory {i : Instr} {s t : State} (h : exec i s = .next t) : SameMemory s t ∨ (MayStore i ∧ MemoryWrites s t) := by
  cases exec_ending h with
  | read v b _ ha =>
    rw [ha.act_eq]
    exact .inl ⟨rfl, rfl⟩
  | store b a p v hf hm ha =>
    exact .inr ⟨⟨by cases ha <;> simp [hm], by simp [hf]⟩, .one (t := { s with bus := b }) ⟨rfl, rfl⟩ ⟨rfl, rfl⟩⟩
  | update b a p old new hf hm ha =>
    rw [ha.flags_eq]
    exact .inr ⟨⟨by rcases ha with ⟨⟨⟩⟩ | _ | _ <;> simp [hm], by simp [hf]⟩,
      .one (t := { s with bus := b }) ⟨rfl, rfl⟩ ⟨rfl, rfl⟩⟩
  | plain ha =>
    cases ha with
    | bcc _ | bcs _ | beq _ | bne _ | bmi _ | bpl _ => simp only [State.ite_setPc]; exact .inl ⟨rfl, rfl⟩
    | _ => exact .inl ⟨rfl, rfl⟩
  | push p hi =>
    exact .inr ⟨⟨by simp [hi, Instr.mnemonic], by simp [hi, Instr.form]⟩, .one (t := s) ⟨rfl, rfl⟩ ⟨rfl, rfl⟩⟩
  | call w p q hi =>
    exact .inr ⟨⟨by simp [hi, Instr.mnemonic], by simp [hi, Instr.form]⟩,
      .write (t := s.pushDone p _) (.one (t := s) ⟨rfl, rfl⟩ ⟨rfl, rfl⟩) ⟨rfl, rfl⟩⟩
  | shiftAcc _ _ _ _ | pull _ _ _ | ret _ _ _ _ => exact .inl ⟨rfl, rfl⟩
  | faulted hf _ =>
    obtain hsame | ⟨⟨w, hi⟩, hw⟩ := hf.mem
    · exact .inl hsame
    · exact .inr ⟨⟨by simp [hi, Instr.mnemonic], by simp [hi, Instr.form]⟩, hw.congr ⟨rfl, rfl⟩⟩

/-- Settles O18: an instruction that does not store leaves memory, and so every byte `peek` shows, as it was. -/
theorem memoryWrittenOnlyByStoringInstructions : Obligations.MemoryWrittenOnlyByStoringInstructions := by
  intro i s t h hi
  have hstore : ¬ MayStore i := fun ⟨hm, hf⟩ => hi.elim (absurd hm) hf
  obtain ⟨hmem, hdist⟩ : SameMemory s t := (exec_memory h).resolve_right fun hw => hstore hw.1
  exact ⟨hmem, hdist, State.peek_congr (exec_platform h) hmem hdist⟩

/-! ## The invariant -/

/-- Memory in canonical form and no disturbed backend listed twice: the part of the invariant that a write touches. -/
def State.MemoryInv (s : State) : Prop := Memory.wf s.mem = true ∧ s.disturbed.Nodup

theorem State.MemoryInv.congr {s t : State} (h : s.MemoryInv) (hst : SameMemory s t) : t.MemoryInv := by
  obtain ⟨hmem, hdist⟩ := hst
  rwa [State.MemoryInv, hmem, hdist]

theorem State.MemoryInv.writeDone {s : State} (h : s.MemoryInv) (a : Address) (p : Place) (v : Byte) :
    (s.writeDone a p v).MemoryInv := by
  refine ⟨State.writeDone_wf a p v h.1, ?_⟩
  rw [State.writeDone_disturbed]
  split
  · rename_i hp
    exact h.2.cons hp.2
  · exact h.2

theorem MemoryWrites.memoryInv {s t : State} (h : MemoryWrites s t) (hs : s.MemoryInv) : t.MemoryInv := by
  induction h with
  | none h => exact hs.congr h
  | write _ h ih => exact (ih.writeDone _ _ _).congr h

theorem exec_memoryInv {i : Instr} {s t : State} (h : exec i s = .next t) (hs : s.MemoryInv) : t.MemoryInv := by
  obtain hsame | ⟨-, hw⟩ := exec_memory h
  · exact hs.congr hsame
  · exact hw.memoryInv hs

/-- Settles O11: Decode, the monitor and fault entry leave memory alone, and each delivered write keeps its two properties. -/
theorem stepKeepsTheInvariant : Obligations.StepKeepsTheInvariant := by
  rintro s t ⟨hwf, hmem, -, hdist⟩ h
  obtain ⟨u, hu, ht⟩ := step_from h
  have hinv : u.MemoryInv := by
    rw [hu]
    exact ⟨hmem, hdist⟩
  have htinv : t.MemoryInv := by
    obtain ⟨c, rfl⟩ | ⟨i, v, hv, rfl⟩ := ht
    · exact hinv
    · exact State.MemoryInv.congr (exec_memoryInv hv hinv) ⟨rfl, rfl⟩
  have hlatch : t.latch = .empty := by
    obtain ⟨c, rfl⟩ | ⟨i, v, -, rfl⟩ := ht
    all_goals rfl
  exact ⟨step_platform h ▸ hwf, htinv.1, hlatch, htinv.2⟩

/-- Settles O10: each part evaluated at State.reset. -/
theorem resetStateMeetsTheInvariant : Obligations.ResetStateMeetsTheInvariant := ⟨rfl, rfl, rfl, List.nodup_nil⟩

/-! ## The fixed bits -/

/-- CLD is the one instruction that writes D, and it clears it (R139). -/
theorem exec_flag_D {i : Instr} {s t : State} (h : exec i s = .next t) (hd : flag s.sr .D = false) : flag t.sr .D = false := by
  by_cases hm : i.mnemonic = .CLD
  · cases i with
    | cld =>
      rw [exec_cld] at h
      cases h
      rw [State.setFlag_sr, flag_putFlag, if_pos rfl]
    | _ => cases hm
  · rw [exec_flagsKept h .D (by simp_all [flagsWritten]), hd]

theorem exec_fixedBits {i : Instr} {s t : State} (h : exec i s = .next t) (hs : s.FixedBits) : t.FixedBits := by
  obtain ⟨hd, hb, hu, hv⟩ := hs
  obtain ⟨hb', hu', hv'⟩ := flagsWritten_fixed i.mnemonic
  have hkept := exec_flagsKept h
  exact ⟨exec_flag_D h hd, (hkept _ hb').trans hb, (hkept _ hu').trans hu, (hkept _ hv').trans hv⟩

theorem step_fixedBits {s t : State} (hs : s.FixedBits) (h : step s = .next t) : t.FixedBits := by
  obtain ⟨u, hu, ht⟩ := step_from h
  have hbits : u.FixedBits := by
    rw [hu]
    exact hs
  obtain ⟨c, rfl⟩ | ⟨i, v, hv, rfl⟩ := ht
  · exact hbits
  · exact (exec_fixedBits hv hbits :)

/-- Settles O13: a Step changes SR only by its instruction, which writes none of B, U and V and writes D only to clear it; and so
along a run. -/
theorem stepKeepsTheFixedBits : Obligations.StepKeepsTheFixedBits := by
  refine ⟨fun s t => step_fixedBits, fun s t hs hreach => ?_⟩
  induction hreach with
  | refl => exact hs
  | tail _ h ih => exact step_fixedBits ih h

/-- Settles O12: each bit evaluated at State.reset. -/
theorem resetStateHasTheFixedBits : Obligations.ResetStateHasTheFixedBits := ⟨rfl, rfl, rfl, rfl⟩

end Sys2Proof.Machine
end

section
/-! PROOFS. The Step (30_encoding.md R53, R55; 60_exceptions.md R160 to R171): what Decode makes of the bytes the bus delivers,
the faults it raises, and the run states in which a Step is taken. -/

namespace Sys2Proof.Machine

open Laws.Rebuilt (rebuild)

/-! ## The bytes the bus delivers -/

theorem readBytes_cons_ok {n : Nat} {a : Address} {s t : State} {v : Byte} {rest : List Byte}
    (h : readBytes (n + 1) a s = .ok (v :: rest) t) :
    ∃ u, memRead a s = .ok v u ∧ readBytes n (a + 1) u = .ok rest t := by
  obtain ⟨w, u, hu, h⟩ := Res.andThen_eq_ok.1 h
  obtain ⟨r, x, hr, h⟩ := Res.andThen_eq_ok.1 h
  cases h
  exact ⟨u, hu, hr⟩

theorem memRead_ok_bus_length {a : Address} {s t : State} {v : Byte} (h : memRead a s = .ok v t) :
    t.bus.length = s.bus.length + 1 := by
  obtain ⟨p, -, -, rfl⟩ := memRead_ok h
  rfl

/-- Reading bytes moves the bus alone, once for each byte. -/
theorem readBytes_ok {bytes : List Byte} {a : Address} {s t : State} (h : readBytes bytes.length a s = .ok bytes t) :
    SameButBus s t ∧ t.bus.length = s.bus.length + bytes.length := by
  induction bytes generalizing a s with
  | nil =>
    cases h
    exact ⟨.refl _, rfl⟩
  | cons v rest ih =>
    obtain ⟨u, hu, hrest⟩ := readBytes_cons_ok h
    obtain ⟨hsame, hlen⟩ := ih hrest
    refine ⟨(memRead_sameButBus hu).trans hsame, ?_⟩
    rw [hlen, memRead_ok_bus_length hu, List.length_cons]
    omega

/-! ## Decode -/

/-- Decode once the opcode byte is read and legal: the operand bytes are still to be read (R53). -/
theorem fetch_of_opcode {s t : State} {op : Byte} {d : Descriptor} (hm : memRead s.pc s = .ok op t)
    (hd : descriptor op = some d) : fetch s = fetchOperand op d (t.setLatch (.fetched s.pc op)) := by
  obtain ⟨hpc, -⟩ := (memRead_sameButBus hm).fields
  rw [fetch, memRead_setLatch _ hm, Res.ok_andThen]
  simp only [hd, State.setLatch_pc, hpc]
  rfl

theorem fetchOperand_f2 {s t : State} {op n : Byte} (make : Byte → Instr) (h : memRead (s.pc + 1) s = .ok n t) (l : Latch) :
    fetchOperand op (.f2 make) (s.setLatch l) = .ok (make n) (t.setLatch (.decoded s.pc op (make n))) := by
  have hread : memRead ((s.setLatch l).pc + 1) (s.setLatch l) = .ok n (t.setLatch l) := memRead_setLatch l h
  obtain ⟨b, rfl⟩ := (memRead_sameButBus h).exists_bus
  rw [fetchOperand, hread]
  rfl

theorem fetchOperand_f3 {s t u : State} {op lb hb : Byte} (make : Address → Instr) (h : memRead (s.pc + 1) s = .ok lb t)
    (h' : memRead (s.pc + 1 + 1) t = .ok hb u) (l : Latch) :
    fetchOperand op (.f3 make) (s.setLatch l) =
      .ok (make (join hb lb)) (u.setLatch (.decoded s.pc op (make (join hb lb)))) := by
  have hread : memRead16 ((s.setLatch l).pc + 1) (s.setLatch l) = .ok (join hb lb) (u.setLatch l) := by
    rw [memRead16, State.setLatch_pc, memRead_setLatch l h, Res.ok_andThen, memRead_setLatch l h', Res.ok_andThen]
  obtain ⟨b, rfl⟩ := ((memRead_sameButBus h).trans (memRead_sameButBus h')).exists_bus
  rw [fetchOperand, hread]
  rfl

/-- Decode reads exactly the bytes of the instruction, and the latch then holds it (R25, R53). -/
theorem fetch_of_readBytes {s t : State} {bytes : List Byte} {i : Instr} (hr : readBytes bytes.length s.pc s = .ok bytes t)
    (hd : decode bytes = .ok (i, [])) : fetch s = .ok i (t.setLatch (.decoded s.pc i.opcode i)) := by
  obtain ⟨op, d, operand, rfl, hdesc, hreb⟩ := decode_ok hd
  rw [List.append_nil] at hr
  obtain ⟨hop, -⟩ := List.cons.inj (encode_of_rebuild hdesc hreb)
  obtain ⟨u, hu, hrest⟩ := readBytes_cons_ok hr
  rw [fetch_of_opcode hu hdesc, hop]
  obtain ⟨b, rfl⟩ := (memRead_sameButBus hu).exists_bus
  unfold rebuild at hreb
  split at hreb <;> cases hreb
  · cases hrest
    rfl
  · obtain ⟨v, hv, hrest⟩ := readBytes_cons_ok hrest
    cases hrest
    exact fetchOperand_f2 _ hv _
  · obtain ⟨v, hv, hrest⟩ := readBytes_cons_ok hrest
    obtain ⟨w, hw, hrest⟩ := readBytes_cons_ok hrest
    cases hrest
    exact fetchOperand_f3 _ hv hw _

/-- Settles O5: Decode has read the bytes of the instruction, and then a Step observes, advances and executes. -/
theorem stepRunsTheDecodedInstruction : Obligations.StepRunsTheDecodedInstruction := by
  intro s t bytes i hw hr hread hdec _
  obtain ⟨hsame, hlen⟩ := readBytes_ok hread
  obtain ⟨-, hbytes⟩ := decodedBytesAreTheEncoding bytes [] i hdec
  exact ⟨step_of_fetch hw hr (fetch_of_readBytes hread hdec), hsame, hlen.trans (congrArg _ hbytes)⟩

/-! ## The faults of Decode -/

theorem fetch_of_illegal {s : State} {p : Place} (hp : route s.platform s.pc = some p) (hd : descriptor (s.answer p) = none) :
    fetch s =
      .raised (((s.readDone s.pc p).setLatch (.fetched s.pc (s.answer p))).enterFault .illegalOpcode) := by
  rw [fetch, memRead_setLatch _ (memRead_of_route hp), Res.ok_andThen]
  simp only [hd]
  rfl

theorem fetch_of_unmapped {s : State} (h : route s.platform s.pc = none) :
    fetch s = .raised ((s.setLatch (.fetching s.pc)).enterFault (.busFault (.read s.pc))) := by
  have h' : route (s.setLatch (.fetching s.pc)).platform s.pc = none := h
  rw [fetch, memRead_of_unmapped h', Res.raised_andThen]

theorem fetchOperand_of_unmapped {s : State} {op : Byte} {d : Descriptor} (hd : 2 ≤ d.length)
    (h : route s.platform (s.pc + 1) = none) :
    fetchOperand op d s = .raised (s.enterFault (.busFault (.read (s.pc + 1)))) := by
  cases d with
  | f1 i => simp [Descriptor.length] at hd
  | f2 make => rw [fetchOperand, memRead_of_unmapped h, Res.raised_andThen]
  | f3 make => rw [fetchOperand, memRead16_of_low_unmapped h, Res.raised_andThen]

theorem fetchOperand_of_high_unmapped {s : State} {op : Byte} {d : Descriptor} {q : Place} (hd : d.length = 3)
    (hq : route s.platform (s.pc + 1) = some q) (h : route s.platform (s.pc + 1 + 1) = none) :
    fetchOperand op d s =
      .raised ((s.readDone (s.pc + 1) q).enterFault (.busFault (.read (s.pc + 1 + 1)))) := by
  cases d with
  | f1 i | f2 make => simp [Descriptor.length] at hd
  | f3 make => rw [fetchOperand, memRead16_of_high_unmapped hq h, Res.raised_andThen]

/-- Settles O7: the fault of the opcode read, of the first operand read and of the second. -/
theorem unmappedFetchFaultsInDecode : Obligations.UnmappedFetchFaultsInDecode := by
  refine ⟨fun s hw hr hp => ?_, fun s p d hw hr hp hd hlen hq => ?_, fun s p q d hw hr hp hd hlen hq hq' => ?_⟩
  · exact step_of_raised hw hr (fetch_of_unmapped hp)
  · have hf := (fetch_of_opcode (memRead_of_route hp) hd).trans (fetchOperand_of_unmapped hlen hq)
    exact step_of_raised hw hr hf
  · have hf := (fetch_of_opcode (memRead_of_route hp) hd).trans (fetchOperand_of_high_unmapped hlen hq hq')
    exact ⟨_, step_of_raised hw hr hf, rfl, rfl⟩

/-- No instruction raises IllegalOpcode once decoded, and IndirectXPageCross only in its mode (R161, R163). -/
theorem FaultReason.fault_cases {i : Instr} {s : State} {c : Cause} (h : FaultReason i s c) :
    (∃ dir a, c.fault = .busFault dir a) ∨ (c.fault = .indirectXPageCross ∧ ∃ n, i.form = .memory (.indirectX n)) := by
  obtain ⟨m, rfl⟩ | ⟨rfl, hn⟩ := h.kind
  · cases m <;> exact .inl ⟨_, _, rfl⟩
  · exact .inr ⟨rfl, hn⟩

/-- A fault on record after an instruction was there before it, or is one the instruction can raise. -/
theorem exec_faultRecord {i : Instr} {s t : State} {r : FaultRecord} (h : exec i s = .next t) (hr : t.faultRecord = some r) :
    s.faultRecord = some r ∨ (∃ dir a, r.fault = .busFault dir a) ∨
      (r.fault = .indirectXPageCross ∧ ∃ n, i.form = .memory (.indirectX n)) := by
  cases exec_control h with
  | completed _ h => exact .inl (h.faultRecord ▸ hr)
  | halted _ => exact .inl hr
  | faulted _ hreason =>
    cases hr
    exact .inr hreason.fault_cases

/-- Settles O6: the legality check comes after the opcode read and before anything else, and no instruction raises the fault. -/
theorem illegalOpcodeFaultsInDecode : Obligations.IllegalOpcodeFaultsInDecode := by
  refine ⟨fun s p hw hr hp hill => ?_, rfl, leftOutOpcodes_illegal, descriptor_eq_none_iff, fun i s t r h hr hill => ?_⟩
  · exact step_of_raised hw hr (fetch_of_illegal hp ((descriptor_eq_none_iff _).2 hill))
  · obtain hs | ⟨dir, a, hbus⟩ | ⟨hx, -⟩ := exec_faultRecord h hr
    · exact hs
    · simp [hbus] at hill
    · simp [hx] at hill

/-! ## IndirectXPageCross -/

/-- The instructions of the mode indirect,X are seven that read and one that stores (R56). -/
theorem exec_indirectX {i : Instr} {n : Byte} (hf : i.form = .memory (.indirectX n)) (s : State) :
    (∃ act, exec i s = readThen (.memory (.indirectX n)) act s) ∨ ∃ r, exec i s = storeReg (.indirectX n) r s := by
  cases i with
  | adcInx _ | sbcInx _ | andInx _ | oraInx _ | eorInx _ | cmpInx _ | ldaInx _ => cases hf; exact .inl ⟨_, rfl⟩
  | staInx _ => cases hf; exact .inr ⟨_, rfl⟩
  | _ => cases hf

theorem indirectX_mem {i : Instr} {n : Byte} (hf : i.form = .memory (.indirectX n)) :
    (i.mnemonic, i.opcode) ∈ [(Mnemonic.ADC, (0x61 : Byte)), (.AND, 0x21), (.CMP, 0xC1), (.EOR, 0x41), (.LDA, 0xA1),
      (.ORA, 0x01), (.SBC, 0xE1), (.STA, 0x81)] := by
  cases i with
  | adcInx _ | sbcInx _ | andInx _ | oraInx _ | eorInx _ | cmpInx _ | ldaInx _ | staInx _ =>
    simp [Instr.mnemonic, Instr.opcode]
  | _ => cases hf

theorem storeReg_of_raised {f : MemForm} {s t : State} (r : Reg) (h : ea f s = .raised t) : storeReg f r s = .next t := by
  rw [storeReg, h, Res.raised_andThen, Res.raised_outcome]

theorem add_eq_255 {a b : Byte} (h : (a.toNat + b.toNat) % 256 = 0xFF) : a + b = 0xFF :=
  BitVec.eq_of_toNat_eq ((BitVec.toNat_add a b).trans h)

theorem exec_of_pageCross {i : Instr} {n : Byte} {s : State} (hf : i.form = .memory (.indirectX n)) (h : n + s.x = 0xFF) :
    exec i s = .next (s.enterFault .indirectXPageCross) := by
  have hea := ea_indirectX_of_pageCross h
  obtain ⟨act, he⟩ | ⟨r, he⟩ := exec_indirectX hf s
  · have hop : operand (.memory (.indirectX n)) s = .raised (s.enterFault .indirectXPageCross) := by
      rw [operand, hea, Res.raised_andThen]
    rw [he, readThen_of_raised act hop]
  · rw [he, storeReg_of_raised r hea]

/-- Settles O21: the check comes before both pointer reads, and after a Step has fetched two bytes and moved `pc` past them. -/
theorem indirectXPageCrossFaults : Obligations.IndirectXPageCrossFaults := by
  refine ⟨fun i n s hf h => exec_of_pageCross hf (add_eq_255 h), fun i n s t bytes hw hr hread hdec hf h => ?_,
    fun i s t r h hr hx hs => ?_⟩
  · refine ⟨rfl, rfl, ?_⟩
    have hlen : i.length = 2 := by rw [Instr.length, hf]; rfl
    obtain ⟨b, rfl⟩ := (readBytes_ok hread).1.exists_bus
    rw [step_of_fetch hw hr (fetch_of_readBytes hread hdec), exec_of_pageCross hf, advance, hlen, observe_eq]
    · exact ⟨_, rfl, rfl⟩
    · rw [advance_x, observe_x]
      exact add_eq_255 h
  · obtain hrec | ⟨dir, a, hbus⟩ | ⟨-, n, hf⟩ := exec_faultRecord h hr
    · exact absurd hrec hs
    · simp [hbus] at hx
    · exact indirectX_mem hf

/-! ## The run states -/

/-- Settles O8: each run state names its stop, and in RUNNING Decode answers or faults and the instruction ends. -/
theorem noStepOutsideRunning : Obligations.NoStepOutsideRunning := by
  refine ⟨fun s hw => ⟨step_of_halted hw, ?_, ?_, ?_, fun hr => ?_⟩, fun s hw => ?_⟩
  case refine_4 =>
    cases hf : fetch s with
    | raised t => exact ⟨_, step_of_raised hw hr hf⟩
    | ok i t =>
      obtain ⟨u, hu⟩ := exec_next i (advance i (observe i t))
      exact ⟨_, by rw [step_of_fetch hw hr hf, hu]; rfl⟩
  all_goals simp +contextual [step, hw]

end Sys2Proof.Machine
end

section
/-! PROOFS. Noninterference (10_state.md R17 to R21, 60_exceptions.md R171): an update of the state that no operation can see goes
through every instruction. The monitor's record is one, and so is each of the flags nothing reads. -/

namespace Sys2Proof.Machine

/-! ## The meaning of each instruction -/

/-- The shared operation that an instruction's meaning is, from every state. -/
inductive Meaning (i : Instr) : Prop where
  | read {m : Mnemonic} {src : Source} {act : Byte → State → State} (ha : ReadAct m act)
      (he : ∀ s, exec i s = readThen src act s)
  | store {f : MemForm} {r : Reg} (he : ∀ s, exec i s = storeReg f r s)
  | update {m : Mnemonic} {f : MemForm} {compute : Byte → State → Byte} {flags : Byte → Byte → State → State}
      (ha : UpdateAct m compute flags) (he : ∀ s, exec i s = Machine.update f compute flags s)
  | shiftAcc {result : Byte → Bool → Byte} {out : Byte → Bool} (he : ∀ s, exec i s = Machine.shiftAcc result out s)
  | plain {act : State → State} (ha : PlainAct i act) (he : ∀ s, exec i s = .next (act s))
  | stack (hi : i ∈ [.pha, .pla, .rts])
  | call {w : Address} (hi : i = .jsr w)

theorem exec_meaning (i : Instr) : Meaning i := by
  cases i with
  | adcImm _ | adcZp _ | adcZpx _ | adcAbs _ | adcAbx _ | adcAby _ | adcInx _ | adcIny _ =>
    exact .read .adc (exec_adc rfl rfl)
  | sbcImm _ | sbcZp _ | sbcZpx _ | sbcAbs _ | sbcAbx _ | sbcAby _ | sbcInx _ | sbcIny _ =>
    exact .read .sbc (exec_sbc rfl rfl)
  | andImm _ | andZp _ | andZpx _ | andAbs _ | andAbx _ | andAby _ | andInx _ | andIny _ =>
    exact .read .and (exec_and rfl rfl)
  | oraImm _ | oraZp _ | oraZpx _ | oraAbs _ | oraAbx _ | oraAby _ | oraInx _ | oraIny _ =>
    exact .read .ora (exec_ora rfl rfl)
  | eorImm _ | eorZp _ | eorZpx _ | eorAbs _ | eorAbx _ | eorAby _ | eorInx _ | eorIny _ =>
    exact .read .eor (exec_eor rfl rfl)
  | aslZp _ | aslZpx _ | aslAbs _ | aslAbx _ => exact .update (.shift .asl) (exec_asl_mem rfl rfl)
  | lsrZp _ | lsrZpx _ | lsrAbs _ | lsrAbx _ => exact .update (.shift .lsr) (exec_lsr_mem rfl rfl)
  | rolZp _ | rolZpx _ | rolAbs _ | rolAbx _ => exact .update (.shift .rol) (exec_rol_mem rfl rfl)
  | rorZp _ | rorZpx _ | rorAbs _ | rorAbx _ => exact .update (.shift .ror) (exec_ror_mem rfl rfl)
  | cmpImm _ | cmpZp _ | cmpZpx _ | cmpAbs _ | cmpAbx _ | cmpAby _ | cmpInx _ | cmpIny _ =>
    exact .read .cmp (exec_cmp rfl rfl)
  | cpxImm _ | cpxZp _ | cpxAbs _ => exact .read .cpx (exec_cpx rfl rfl)
  | cpyImm _ | cpyZp _ | cpyAbs _ => exact .read .cpy (exec_cpy rfl rfl)
  | incZp _ | incZpx _ | incAbs _ | incAbx _ => exact .update .inc (exec_inc rfl rfl)
  | decZp _ | decZpx _ | decAbs _ | decAbx _ => exact .update .dec (exec_dec rfl rfl)
  | inx => exact .plain .inx fun _ => rfl
  | dex => exact .plain .dex fun _ => rfl
  | iny => exact .plain .iny fun _ => rfl
  | dey => exact .plain .dey fun _ => rfl
  | bcc n => exact .plain (.bcc n) fun _ => rfl
  | bcs n => exact .plain (.bcs n) fun _ => rfl
  | beq n => exact .plain (.beq n) fun _ => rfl
  | bne n => exact .plain (.bne n) fun _ => rfl
  | bmi n => exact .plain (.bmi n) fun _ => rfl
  | bpl n => exact .plain (.bpl n) fun _ => rfl
  | jmp w => exact .plain (.jmp w) fun _ => rfl
  | tax => exact .plain .tax fun _ => rfl
  | tay => exact .plain .tay fun _ => rfl
  | txa => exact .plain .txa fun _ => rfl
  | tya => exact .plain .tya fun _ => rfl
  | txs => exact .plain .txs fun _ => rfl
  | clc => exact .plain .clc fun _ => rfl
  | sec => exact .plain .sec fun _ => rfl
  | cli => exact .plain .cli fun _ => rfl
  | sei => exact .plain .sei fun _ => rfl
  | cld => exact .plain .cld fun _ => rfl
  | nop => exact .plain .nop fun _ => rfl
  | hlt => exact .plain .hlt fun _ => rfl
  | ldaImm _ | ldaZp _ | ldaZpx _ | ldaAbs _ | ldaAbx _ | ldaAby _ | ldaInx _ | ldaIny _ =>
    exact .read .lda (exec_lda rfl rfl)
  | ldxImm _ | ldxZp _ | ldxZpy _ | ldxAbs _ | ldxAby _ => exact .read .ldx (exec_ldx rfl rfl)
  | ldyImm _ | ldyZp _ | ldyZpx _ | ldyAbs _ | ldyAbx _ => exact .read .ldy (exec_ldy rfl rfl)
  | aslAcc | lsrAcc | rolAcc | rorAcc => exact .shiftAcc fun _ => rfl
  | staZp _ | staZpx _ | staAbs _ | staAbx _ | staAby _ | staInx _ | staIny _ => exact .store (exec_sta rfl rfl)
  | stxZp _ | stxZpy _ | stxAbs _ => exact .store (exec_stx rfl rfl)
  | styZp _ | styZpx _ | styAbs _ => exact .store (exec_sty rfl rfl)
  | pha | pla | rts => exact .stack (by simp)
  | jsr w => exact .call rfl

/-! ## An update that no operation can see -/

/-- What an operation answers, with its state changed by `g`. -/
def Res.mapState {α : Type} (g : State → State) : Res α → Res α
  | .ok v s   => .ok v (g s)
  | .raised s => .raised (g s)

/-- `g` changes nothing that an operation looks at, and it commutes with every update an operation makes. -/
structure Invisible (g : State → State) : Prop where
  pc         (s : State) : (g s).pc = s.pc
  platform   (s : State) : (g s).platform = s.platform
  reg        (s : State) (r : Reg) : (g s).reg r = s.reg r
  flag       (s : State) {f : Flag} (hf : f ∈ [Flag.C, .Z, .N]) : flag (g s).sr f = flag s.sr f
  answer     (s : State) (p : Place) : (g s).answer p = s.answer p
  setPc      (s : State) (t : Address) : g (s.setPc t) = (g s).setPc t
  setReg     (s : State) (r : Reg) (v : Byte) : g (s.setReg r v) = (g s).setReg r v
  setFlag    (s : State) {f : Flag} (hf : f ∈ [Flag.C, .Z, .N]) (b : Bool) : g (s.setFlag f b) = (g s).setFlag f b
  readDone   (s : State) (a : Address) (p : Place) : g (s.readDone a p) = (g s).readDone a p
  writeDone  (s : State) (a : Address) (p : Place) (v : Byte) : g (s.writeDone a p v) = (g s).writeDone a p v
  enterFault (s : State) (c : Cause) : g (s.enterFault c) = (g s).enterFault c
  halt       (s : State) : g { s with haltLatch := s.x, run := .halted } = { g s with haltLatch := (g s).x, run := .halted }

section
variable {g : State → State}

theorem Res.andThen_mapState {α β : Type} {r r' : Res α} {next : α → State → Res β} (hr : r' = r.mapState g)
    (hn : ∀ v t, next v (g t) = (next v t).mapState g) : r'.andThen next = (r.andThen next).mapState g := by
  subst hr
  cases r with
  | ok v t => exact hn v t
  | raised t => rfl

theorem Res.outcome_mapState (r : Res Unit) : (r.mapState g).outcome = mapNext g r.outcome := by
  cases r <;> rfl

variable (hg : Invisible g)
include hg

/-! ### The bus and the stack -/

theorem Invisible.memRead (a : Address) (s : State) : memRead a (g s) = (memRead a s).mapState g := by
  obtain ⟨p, hp, h⟩ | ⟨hp, h⟩ := memRead_cases a s
  all_goals rw [← hg.platform] at hp
  · rw [h, memRead_of_route hp, hg.answer, Res.mapState, hg.readDone]
  · rw [h, memRead_of_unmapped hp, Res.mapState, hg.enterFault]

theorem Invisible.memWrite (a : Address) (v : Byte) (s : State) : memWrite a v (g s) = (memWrite a v s).mapState g := by
  obtain ⟨p, hp, h⟩ | ⟨hp, h⟩ := memWrite_cases a v s
  all_goals rw [← hg.platform] at hp
  · rw [h, memWrite_of_route v hp, Res.mapState, hg.writeDone]
  · rw [h, memWrite_of_unmapped v hp, Res.mapState, hg.enterFault]

theorem Invisible.memRead16 (a : Address) (s : State) : memRead16 a (g s) = (memRead16 a s).mapState g :=
  Res.andThen_mapState (hg.memRead a s) fun _ t => Res.andThen_mapState (hg.memRead (a + 1) t) fun _ _ => rfl

theorem Invisible.push8 (v : Byte) (s : State) : push8 v (g s) = (push8 v s).mapState g := by
  have hsp (s : State) : (g s).sp = s.sp := hg.reg s .sp
  unfold Machine.push8
  rw [hsp]
  refine Res.andThen_mapState (hg.memWrite _ v s) fun _ t => ?_
  rw [Res.mapState, hg.setReg, hsp]

theorem Invisible.pull8 (s : State) : pull8 (g s) = (pull8 s).mapState g := by
  have hsp : (g s).sp = s.sp := hg.reg s .sp
  unfold Machine.pull8
  rw [hsp]
  have hread := hg.memRead (stackAddr (s.sp + 1)) (s.setReg .sp (s.sp + 1))
  rwa [hg.setReg] at hread

/-! ### The operand -/

theorem Invisible.ea (f : MemForm) (s : State) : ea f (g s) = (ea f s).mapState g := by
  have hx (s : State) : (g s).x = s.x := hg.reg s .x
  have hy (s : State) : (g s).y = s.y := hg.reg s .y
  cases f with
  | indirectX n =>
    simp only [Machine.ea, hx]
    split
    · rw [raise_eq, raise_eq, Res.mapState, hg.enterFault]
    · exact hg.memRead16 _ s
  | indirectY n => exact Res.andThen_mapState (hg.memRead16 _ s) fun _ t => by rw [hy]; rfl
  | _ => simp only [Machine.ea, hx, hy, Res.mapState]

theorem Invisible.operand (src : Source) (s : State) : operand src (g s) = (operand src s).mapState g := by
  cases src with
  | immediate n => rfl
  | memory f => exact Res.andThen_mapState (hg.ea f s) fun a t => hg.memRead a t

/-! ### The flags -/

theorem Invisible.setZN (v : Byte) (s : State) : g (setZN v s) = setZN v (g s) := by
  rw [Machine.setZN, hg.setFlag _ (by simp), hg.setFlag _ (by simp), Machine.setZN]

theorem Invisible.putReg (r : Reg) (v : Byte) (s : State) : g (putReg r v s) = putReg r v (g s) := by
  rw [Machine.putReg, hg.setZN, hg.setReg, Machine.putReg]

theorem Invisible.shiftFlags (out : Byte → Bool) (old new : Byte) (s : State) :
    g (shiftFlags out old new s) = shiftFlags out old new (g s) := by
  rw [Machine.shiftFlags, hg.setZN, hg.setFlag _ (by simp), Machine.shiftFlags]

theorem Invisible.takeResult (r : Byte) (c : Bool) (s : State) : g (takeResult r c s) = takeResult r c (g s) := by
  rw [Machine.takeResult, hg.setZN, hg.setReg, hg.setFlag _ (by simp), Machine.takeResult]

/-! ### The instructions -/

theorem Invisible.readAct {m : Mnemonic} {act : Byte → State → State} (h : ReadAct m act) (v : Byte) (s : State) :
    g (act v s) = act v (g s) := by
  have hac : (g s).ac = s.ac := hg.reg s .ac
  have hc : Machine.flag (g s).sr .C = Machine.flag s.sr .C := hg.flag s (by simp)
  cases h with
  | adc => rw [adc_eq_takeResult (.refl _), adc_eq_takeResult (.refl _), hg.takeResult, hac, hc]
  | sbc => rw [sbc_eq_takeResult (.refl _), sbc_eq_takeResult (.refl _), hg.takeResult, hac, hc]
  | and | ora | eor => rw [logic_eq_putReg (.refl _), logic_eq_putReg (.refl _), hg.putReg, hac]
  | cmp | cpx | cpy => rw [compareReg_eq_shiftFlags, compareReg_eq_shiftFlags, hg.shiftFlags, hg.reg]
  | lda | ldx | ldy => exact hg.putReg _ v s

theorem Invisible.updateAct {m : Mnemonic} {compute : Byte → State → Byte} {flags : Byte → Byte → State → State}
    (h : UpdateAct m compute flags) :
    (∀ v s, compute v (g s) = compute v s) ∧ ∀ old new s, g (flags old new s) = flags old new (g s) := by
  cases h with
  | shift _ => exact ⟨fun v s => by simp only [hg.flag s (f := .C) (by simp)], hg.shiftFlags _⟩
  | inc | dec => exact ⟨fun _ _ => rfl, fun _ => hg.setZN⟩

theorem Invisible.plainAct {i : Instr} {act : State → State} (h : PlainAct i act)
    (hflag : i ∈ [.cli, .sei, .cld] → ∀ f b s, g (s.setFlag f b) = (g s).setFlag f b) (s : State) :
    g (act s) = act (g s) := by
  have hreg (r : Reg) : (g s).reg r = s.reg r := hg.reg s r
  cases h with
  | inx | dex | iny | dey | tax | tay | txa | tya =>
    simp only [← State.reg_ac, ← State.reg_x, ← State.reg_y, hg.putReg, hreg]
  | txs => simp only [← State.reg_x, hg.setReg, hreg]
  | clc | sec => exact hg.setFlag s (by simp) _
  | cli | sei | cld => exact hflag (by simp) _ _ s
  | nop => rfl
  | hlt => exact hg.halt s
  | jmp w => exact hg.setPc s w
  | bcc _ | bcs _ | beq _ | bne _ | bmi _ | bpl _ =>
    simp only [State.ite_setPc, hg.setPc, hg.pc, hg.flag s (List.mem_cons_self ..), hg.flag s (f := .Z) (by simp),
      hg.flag s (f := .N) (by simp)]

/-- An invisible update goes through every instruction, the three that write a flag nothing reads apart. -/
theorem Invisible.exec {i : Instr} (hflag : i ∈ [.cli, .sei, .cld] → ∀ f b s, g (s.setFlag f b) = (g s).setFlag f b)
    (s : State) : exec i (g s) = mapNext g (exec i s) := by
  cases exec_meaning i with
  | read ha he =>
    rw [he, he, readThen, readThen, ← Res.outcome_mapState]
    exact congrArg _ (Res.andThen_mapState (hg.operand _ s) fun v t => by rw [Res.mapState, hg.readAct ha])
  | store he =>
    rw [he, he, storeReg, storeReg, ← Res.outcome_mapState]
    exact congrArg _ (Res.andThen_mapState (hg.ea _ s) fun a t => by rw [hg.reg]; exact hg.memWrite a _ t)
  | update ha he =>
    obtain ⟨hcompute, hflags⟩ := hg.updateAct ha
    rw [he, he, Machine.update, Machine.update, ← Res.outcome_mapState]
    refine congrArg _ (Res.andThen_mapState (hg.ea _ s) fun a t => Res.andThen_mapState (hg.memRead a t) fun v u => ?_)
    rw [hcompute]
    exact Res.andThen_mapState (hg.memWrite a _ u) fun _ w => by rw [Res.mapState, hflags]
  | shiftAcc he =>
    have hac : (g s).ac = s.ac := hg.reg s .ac
    have hc : Machine.flag (g s).sr .C = Machine.flag s.sr .C := hg.flag s (by simp)
    rw [he, he, shiftAcc_eq_takeResult, shiftAcc_eq_takeResult, mapNext, hg.takeResult, hac, hc]
  | plain ha he => rw [he, he, mapNext, hg.plainAct ha hflag]
  | stack hi =>
    simp only [List.mem_cons, List.not_mem_nil, or_false] at hi
    obtain rfl | rfl | rfl := hi
    · have hac : (g s).ac = s.ac := hg.reg s .ac
      rw [exec_pha, exec_pha, hac, hg.push8, Res.outcome_mapState]
    · rw [exec_pla, exec_pla, ← Res.outcome_mapState]
      exact congrArg _ (Res.andThen_mapState (hg.pull8 s) fun v t => by rw [Res.mapState, hg.putReg])
    · rw [exec_rts, exec_rts, ← Res.outcome_mapState]
      exact congrArg _ (Res.andThen_mapState (hg.pull8 s) fun l t =>
        Res.andThen_mapState (hg.pull8 t) fun h u => by rw [Res.mapState, hg.setPc])
  | call hi =>
    subst hi
    rw [exec_jsr, exec_jsr, hg.pc, ← Res.outcome_mapState]
    exact congrArg _ (Res.andThen_mapState (hg.push8 _ s) fun _ t =>
      Res.andThen_mapState (hg.push8 _ t) fun _ u => by rw [Res.mapState, hg.setPc])

end

/-! ## The flags nothing reads -/

theorem State.setFlag_setFlag (s : State) (f : Flag) (b c : Bool) : (s.setFlag f b).setFlag f c = s.setFlag f c :=
  congrArg s.setSr (putFlag_putFlag s.sr f b c)

theorem State.setFlag_comm (s : State) {f k : Flag} (h : f ≠ k) (b c : Bool) :
    (s.setFlag f b).setFlag k c = (s.setFlag k c).setFlag f b :=
  congrArg s.setSr (putFlag_comm s.sr h b c)

/-- A flag other than C, Z and N is invisible. -/
theorem State.setFlag_invisible {f : Flag} (hf : f ∈ [Flag.I, .D, .B, .U, .V]) (b : Bool) : Invisible (·.setFlag f b) where
  pc _ := rfl
  platform _ := rfl
  reg _ r := by cases r <;> rfl
  flag s k hk := by
    have hne : k ≠ f := by rintro rfl; revert hf hk; cases k <;> simp
    rw [State.setFlag_sr, flag_putFlag, if_neg hne]
  answer _ _ := rfl
  setPc _ _ := rfl
  setReg _ r _ := by cases r <;> rfl
  setFlag s k hk c := by
    have hne : k ≠ f := by rintro rfl; revert hf hk; cases k <;> simp
    exact s.setFlag_comm hne c b
  readDone _ _ _ := rfl
  writeDone s a p v := by cases hp : p.kind <;> (simp only [State.writeDone, hp]; rfl)
  enterFault _ _ := rfl
  halt _ := rfl

/-- CLI, SEI and CLD write a flag, whatever the state. -/
theorem exec_setFlag {i : Instr} (hi : i ∈ [.cli, .sei, .cld]) : ∃ k c, ∀ s, exec i s = .next (s.setFlag k c) := by
  simp only [List.mem_cons, List.not_mem_nil, or_false] at hi
  obtain rfl | rfl | rfl := hi
  · exact ⟨_, _, exec_cli⟩
  · exact ⟨_, _, exec_sei⟩
  · exact ⟨_, _, exec_cld⟩

/-- What a flag held is forgotten when it is written, whatever flag was written in between. -/
theorem State.setFlag_forget (s : State) (f k : Flag) (b c d : Bool) :
    ((s.setFlag f b).setFlag k c).setFlag f d = (s.setFlag k c).setFlag f d := by
  by_cases h : f = k
  · rw [h, State.setFlag_setFlag, State.setFlag_setFlag, State.setFlag_setFlag]
  · rw [State.setFlag_comm s h, State.setFlag_setFlag]

/-- Settles O15: the flag goes through the instruction unseen, and CLI, SEI and CLD write theirs whatever it held. -/
theorem noInstructionReadsTheUnreadFlags : Obligations.NoInstructionReadsTheUnreadFlags := by
  intro f b i s hf
  by_cases hi : i ∈ [.cli, .sei, .cld]
  · obtain ⟨k, c, he⟩ := exec_setFlag hi
    rw [he, he, mapNext, mapNext, State.setFlag_forget]
  · obtain ⟨t, ht⟩ := exec_next i s
    have he : exec i (s.setFlag f b) = mapNext (·.setFlag f b) (exec i s) :=
      (State.setFlag_invisible hf b).exec (fun h => absurd h hi) s
    rw [he, ht, mapNext, mapNext, mapNext, State.setFlag_setFlag]

/-! ## The monitor -/

/-- The state with another monitor record. -/
def State.withMonitor (m : Option (List Observation)) (s : State) : State := { s with monitor := m }

theorem State.withMonitor_invisible (m : Option (List Observation)) : Invisible (State.withMonitor m) where
  pc _ := rfl
  platform _ := rfl
  reg _ r := by cases r <;> rfl
  flag _ _ _ := rfl
  answer _ _ := rfl
  setPc _ _ := rfl
  setReg _ r _ := by cases r <;> rfl
  setFlag _ _ _ _ := rfl
  readDone _ _ _ := rfl
  writeDone s a p v := by cases hp : p.kind <;> (simp only [State.writeDone, hp]; rfl)
  enterFault _ _ := rfl
  halt _ := rfl

theorem Invisible.fetch {g : State → State} (hg : Invisible g) (hlatch : ∀ s l, g (s.setLatch l) = (g s).setLatch l)
    (s : State) : fetch (g s) = (fetch s).mapState g := by
  rw [Machine.fetch, Machine.fetch, hg.pc, ← hlatch]
  refine Res.andThen_mapState (hg.memRead _ _) fun op t => ?_
  simp only [hg.pc, ← hlatch]
  cases descriptor op with
  | none => rw [raise_eq, raise_eq, Res.mapState, hg.enterFault]
  | some d =>
    have hdecoded (i : Instr) (u : State) : latchDecoded op i (g u) = (latchDecoded op i u).mapState g := by
      rw [latchDecoded, latchDecoded, Res.mapState, hg.pc, hlatch]
    cases d with
    | f1 i => exact hdecoded i _
    | f2 make =>
      simp only [fetchOperand, hg.pc]
      exact Res.andThen_mapState (hg.memRead _ _) fun n u => hdecoded (make n) u
    | f3 make =>
      simp only [fetchOperand, hg.pc]
      exact Res.andThen_mapState (hg.memRead16 _ _) fun w u => hdecoded (make w) u

/-- Whatever the monitor's record was, observing moves the record alone. -/
theorem observe_withMonitor (i : Instr) (m : Option (List Observation)) (s : State) :
    ∃ k, observe i (s.withMonitor m) = (observe i s).withMonitor k := by
  refine ⟨(observe i (s.withMonitor m)).monitor, (observe_eq i (s.withMonitor m)).trans ?_⟩
  rw [observe_eq i s]
  rfl

theorem step_withMonitor_of_running (m : Option (List Observation)) {s : State} (hw : s.platform.wf = true)
    (hr : s.run = .running) :
    mapNext (State.withMonitor none) (step (s.withMonitor m)) = mapNext (State.withMonitor none) (step s) := by
  have hfetch := (State.withMonitor_invisible m).fetch (fun _ _ => rfl) s
  cases hf : fetch s with
  | raised t =>
    rw [hf] at hfetch
    rw [step_of_raised hw hr hf, step_of_raised (s := s.withMonitor m) hw hr hfetch]
    rfl
  | ok i t =>
    rw [hf] at hfetch
    obtain ⟨k, hk⟩ := observe_withMonitor i m t
    obtain ⟨u, hu⟩ := exec_next i (advance i (observe i t))
    have he : exec i (advance i ((observe i t).withMonitor k)) = _ :=
      (State.withMonitor_invisible k).exec (fun _ _ _ _ => rfl) (advance i (observe i t))
    rw [step_of_fetch hw hr hf, step_of_fetch (s := s.withMonitor m) hw hr hfetch, hk, he, hu]
    rfl

/-- A Step does the same to everything but the monitor's record, whatever the record was. -/
theorem step_withMonitor (m : Option (List Observation)) (s : State) :
    mapNext (State.withMonitor none) (step (s.withMonitor m)) = mapNext (State.withMonitor none) (step s) := by
  obtain ⟨hstop, hrefused⟩ := noStepOutsideRunning
  cases hw : s.platform.wf with
  | false => rw [hrefused s hw, hrefused (s.withMonitor m) hw]
  | true =>
    obtain ⟨hhalted, hfaulted, hstopped, hawaiting, -⟩ := hstop s hw
    obtain ⟨hhalted', hfaulted', hstopped', hawaiting', -⟩ := hstop (s.withMonitor m) hw
    cases hr : s.run with
    | running => exact step_withMonitor_of_running m hw hr
    | halted => rw [hhalted hr, hhalted' hr]
    | faulted => rw [hfaulted hr, hfaulted' hr]
    | stopped => rw [hstopped hr, hstopped' hr]
    | awaitingReset => rw [hawaiting hr, hawaiting' hr]

theorem observe_monitor {s : State} {seen : List Observation} (i : Instr) (h : s.monitor = some seen) :
    (observe i s).monitor =
      some ({ instr := i, opcode := i.opcode, pc := s.pc, ac := s.ac, x := s.x, y := s.y, sp := s.sp, sr := s.sr,
              run := s.run, haltLatch := s.haltLatch, faultRecord := s.faultRecord, platform := s.platform, mem := s.mem,
              disturbed := s.disturbed, bus := s.bus, missed := s.missed } :: seen) := by
  simp only [observe, h]

/-- Settles O9: the monitor's record goes through Decode and the instruction unseen, and the observation point adds to it what
Decode left. -/
theorem monitorSeesButDoesNotChange : Obligations.MonitorSeesButDoesNotChange := by
  refine ⟨fun s m => step_withMonitor m s, fun s t seen bytes i hw hr hmon hread hdec => ?_⟩
  obtain ⟨u, hu⟩ := exec_next i (advance i (observe i (t.setLatch (.decoded s.pc i.opcode i))))
  refine ⟨u.setLatch .empty, by rw [step_of_fetch hw hr (fetch_of_readBytes hread hdec), hu]; rfl, ?_⟩
  obtain ⟨b, rfl⟩ := (readBytes_ok hread).1.exists_bus
  rw [State.setLatch_monitor, exec_monitor hu, advance_monitor, observe_monitor i]
  · rfl
  · exact hmon

end Sys2Proof.Machine
end

section
/-! PROOFS. Loads and stores (49_load_store.md R145 to R150), the bytes of memory (20_memory.md R37, R45), the operand (R74), and
two laws of pairs of instructions: SBC with ADC, JSR with RTS. -/

namespace Sys2Proof.Machine

/-! ## Loads -/

/-- The three loads share one meaning, each with its register. -/
theorem exec_load {i : Instr} {src : Source} {r : Reg}
    (hmem : (i.mnemonic, r) ∈ [(Mnemonic.LDA, Reg.ac), (.LDX, .x), (.LDY, .y)]) (hf : i.form.source? = some src) (s : State) :
    exec i s = readThen src (putReg r) s := by
  obtain ⟨hm, rfl⟩ | ⟨hm, rfl⟩ | ⟨hm, rfl⟩ :
      (i.mnemonic = .LDA ∧ r = .ac) ∨ (i.mnemonic = .LDX ∧ r = .x) ∨ (i.mnemonic = .LDY ∧ r = .y) := by simpa using hmem
  · exact exec_lda hm hf s
  · exact exec_ldx hm hf s
  · exact exec_ldy hm hf s

/-- Settles O36: the operand is read, and then the register takes it and Z and N reflect it. -/
theorem loadsPutTheOperandInTheRegister : Obligations.LoadsPutTheOperandInTheRegister := by
  intro i src s r hm hf
  have he := exec_load hm hf s
  refine ⟨?_, fun m t ho => exec_next_putReg he ho rfl,
    fun t ho => ⟨he.trans (readThen_of_raised _ ho), operand_raised hf ho⟩⟩
  cases i with
  | ldaImm _ | ldaZp _ | ldaZpx _ | ldaAbs _ | ldaAbx _ | ldaAby _ | ldaInx _ | ldaIny _
  | ldxImm _ | ldxZp _ | ldxZpy _ | ldxAbs _ | ldxAby _ | ldyImm _ | ldyZp _ | ldyZpx _ | ldyAbs _ | ldyAbx _ =>
    simp [Instr.mnemonic, Instr.form, Form.mode, MemForm.mode, Instr.opcode]
  | _ => simp [Instr.mnemonic] at hm

/-! ## Stores -/

/-- The three stores share one meaning, each with its register. -/
theorem exec_store {i : Instr} {f : MemForm} {r : Reg}
    (hmem : (i.mnemonic, r) ∈ [(Mnemonic.STA, Reg.ac), (.STX, .x), (.STY, .y)]) (hf : i.form.memory? = some f) (s : State) :
    exec i s = storeReg f r s := by
  obtain ⟨hm, rfl⟩ | ⟨hm, rfl⟩ | ⟨hm, rfl⟩ :
      (i.mnemonic = .STA ∧ r = .ac) ∨ (i.mnemonic = .STX ∧ r = .x) ∨ (i.mnemonic = .STY ∧ r = .y) := by simpa using hmem
  · exact exec_sta hm hf s
  · exact exec_stx hm hf s
  · exact exec_sty hm hf s

theorem storeReg_of_route {f : MemForm} {s t : State} {a : Address} {p : Place} (r : Reg) (he : ea f s = .ok a t)
    (hp : route t.platform a = some p) : storeReg f r s = .next (t.writeDone a p (t.reg r)) := by
  rw [storeReg, he, Res.ok_andThen, memWrite_of_route _ hp, Res.ok_outcome]

theorem storeReg_of_unmapped {f : MemForm} {s t : State} {a : Address} (r : Reg) (he : ea f s = .ok a t)
    (hp : route t.platform a = none) : storeReg f r s = .next (t.enterFault (.busFault (.write a (t.reg r)))) := by
  rw [storeReg, he, Res.ok_andThen, memWrite_of_unmapped _ hp, Res.raised_outcome]

/-- A fault of the pointer is one an instruction that only reads can raise, and leaves fault entry (R71, R160). -/
theorem ea_raised_isReadFault {i : Instr} {f : MemForm} {s t : State} (hf : i.form.memory? = some f)
    (h : ea f s = .raised t) : ∃ c, EndsFaulted s t c ∧ IsReadFault i c := by
  obtain ⟨u, hu, ⟨b, rfl⟩ | ⟨rfl, n, rfl⟩⟩ := ea_raised h
  · exact ⟨_, hu.enterFault_endsFaulted _, .inl ⟨b, rfl⟩⟩
  · exact ⟨_, hu.enterFault_endsFaulted _, .inr ⟨rfl, mode_of_memory hf⟩⟩

/-- Settles O37: one write at the address resolved, or its fault, or the fault of the pointer. -/
theorem storesWriteTheRegister : Obligations.StoresWriteTheRegister := by
  intro i f s r hm hf
  have he := exec_store hm hf s
  refine ⟨?_, fun a t p hea hp => ?_, fun a t hea hp => ?_,
    fun t hea => ⟨he.trans (storeReg_of_raised r hea), ea_raised_isReadFault hf hea⟩⟩
  · cases i with
    | staZp _ | staZpx _ | staAbs _ | staAbx _ | staAby _ | staInx _ | staIny _
    | stxZp _ | stxZpy _ | stxAbs _ | styZp _ | styZpx _ | styAbs _ =>
      simp [Instr.mnemonic, Instr.form, Form.mode, MemForm.mode, Instr.opcode]
    | _ => simp [Instr.mnemonic] at hm
  · obtain ⟨b, rfl⟩ := (ea_sameButBus hea).exists_bus
    have hreg : State.reg { s with bus := b } r = s.reg r := by cases r <;> rfl
    refine ⟨_, he.trans (storeReg_of_route r hea hp), ?_, ?_⟩
    · rw [hreg]
      exact State.writeDone_storesByte (s := { s with bus := b }) _ hp
    · rw [hreg]
      exact State.writeDone_eq _ a p _
  · obtain ⟨b, rfl⟩ := (ea_sameButBus hea).exists_bus
    have hreg : State.reg { s with bus := b } r = s.reg r := by cases r <;> rfl
    refine ⟨_, he.trans (storeReg_of_unmapped r hea hp), ?_, rfl⟩
    rw [hreg]
    rfl

/-! ## The bytes of memory -/

/-- A place is told by its backend and local address: one backend is of one kind. -/
theorem route_place_eq {pl : Platform} {a b : Address} {p q : Place} (hp : route pl a = some p) (hq : route pl b = some q)
    (hb : q.backend = p.backend) (hl : q.localAddr = p.localAddr) : q = p := by
  have hk := route_kind_eq hq hp hb
  cases p
  cases q
  simp_all

/-- Settles O25: the written cell read through any binding of its backend, and every other cell under another key. -/
theorem ramReadsTheByteLastWritten : Obligations.RamReadsTheByteLastWritten := by
  intro s t a v p hwf hp hk hw
  rw [memWrite_of_route v hp] at hw
  obtain rfl := (Res.ok.inj hw).2
  have hp' : route (s.writeDone a p v).platform a = some p := by rw [State.writeDone_platform, hp]
  refine ⟨⟨(s.writeDone a p v).readDone a p, ?_⟩, fun b q hq hb hl => ?_, fun b q hq hne => ?_⟩
  · rw [memRead_of_route hp', State.answer_of_peek hp' (State.peek_writeDone_self v hp hk hwf)]
  · obtain rfl := route_place_eq hp hq hb hl
    exact State.peek_writeDone_self v hq hk hwf
  · have hkey : q.key ≠ p.key := fun h => hne (Place.key_inj (route_localAddr hq) (route_localAddr hp) h)
    exact State.peek_writeDone_ne v hq hkey (by simp [hk])

/-- Settles O26: the two reads of R37, with the second address in numbers. -/
theorem read16IsLittleEndian : Obligations.Read16IsLittleEndian := by
  intro s a p q hp hq
  rw [ofNat_toNat_add_one] at hq ⊢
  obtain ⟨h, hread, hpeek⟩ := memRead16_of_covered hp hq
  exact ⟨_, _, h, hread, toNat_join h _, rfl, hpeek⟩

/-- Settles O30: after the pointer reads of the mode there is one read at the address resolved. -/
theorem operandIsReadOnce : Obligations.OperandIsReadOnce := by
  refine fun s => ⟨fun _ => rfl, fun f a t hea => ⟨fun p hp => ?_, fun hp => ?_⟩⟩
  all_goals
    rw [operand, hea, Res.ok_andThen]
    obtain ⟨b, rfl⟩ := (ea_sameButBus hea).exists_bus
  · exact memRead_of_route hp
  · exact ⟨_, memRead_of_unmapped hp, rfl, rfl⟩

/-! ## SBC and ADC -/

theorem toNat_xor_255 (m : Byte) : (m ^^^ 0xFF).toNat = 255 - m.toNat := by
  have hnot : m ^^^ 0xFF = ~~~m := BitVec.xor_allOnes
  rw [hnot, BitVec.toNat_not]

/-- The sum with the complement is 256 more than the difference. -/
theorem adcSum_xor_255 (a m : Byte) (c : Bool) : (adcSum a (m ^^^ 0xFF) c : Int) = sbcDiff a m c + 256 := by
  have := m.isLt
  rw [adcSum, sbcDiff, toNat_xor_255]
  omega

/-- Settles O33: result and carry of the difference are those of the sum with the complement. -/
theorem sbcIsAdcOfTheComplement : Obligations.SbcIsAdcOfTheComplement := by
  intro m s
  have hsum := adcSum_xor_255 s.ac m (flag s.sr .C)
  have hresult : BitVec.ofInt 8 (sbcDiff s.ac m (flag s.sr .C)) = BitVec.ofNat 8 (adcSum s.ac (m ^^^ 0xFF) (flag s.sr .C)) := by
    rw [← BitVec.ofInt_natCast, hsum, BitVec.ofInt_add]
    simp
  have hcarry : decide (0 ≤ sbcDiff s.ac m (flag s.sr .C)) = (adcSum s.ac (m ^^^ 0xFF) (flag s.sr .C)).testBit 8 := by
    rw [testBit_adcSum, decide_eq_decide]
    unfold adcSum at hsum
    omega
  rw [exec_sbc rfl rfl, exec_adc rfl rfl, readThen_of_ok sbc (t := s) rfl, readThen_of_ok adc (t := s) rfl,
    sbc_eq_takeResult (.refl s), adc_eq_takeResult (.refl s), hresult, hcarry]

/-! ## RTS after JSR -/

/-- The two bytes a JSR stores in RAM, where its two stack addresses are two different cells. -/
theorem State.callDone_peek {s : State} {p q : Place} (w : Address) (hwf : Memory.wf s.mem = true)
    (hp : route s.platform (stackAddr s.sp) = some p) (hq : route s.platform (stackAddr (s.sp - 1)) = some q)
    (hpk : p.kind = .ram) (hqk : q.kind = .ram) (hkey : p.key ≠ q.key) :
    (s.callDone w p q).peek (stackAddr (s.sp - 1)) = some (lo (s.pc - 1)) ∧
      (s.callDone w p q).peek (stackAddr s.sp) = some (hi (s.pc - 1)) := by
  have hroute {a : Address} {r : Place} (h : route s.platform a = some r) :
      route (s.pushDone p (hi (s.pc - 1))).platform a = some r := by rw [State.pushDone_platform, h]
  have hfirst := State.pushDone_storesByte (hi (s.pc - 1)) hp
  have hsecond : StoresByte _ (s.callDone w p q) (stackAddr (s.sp - 1)) q (lo (s.pc - 1)) :=
    State.pushDone_storesByte (lo (s.pc - 1)) (hroute hq)
  exact ⟨hsecond.1 hqk (State.pushDone_wf p _ hwf),
    hfirst.peek_first hsecond (hroute hp) (hroute hq) hwf hpk hkey⟩

/-- RTS where the two stack bytes are shown by `peek`: it takes them, low byte first. -/
theorem exec_rts_of_peek {s : State} {p q : Place} {l h : Byte} (hq : route s.platform (stackAddr (s.sp + 1)) = some q)
    (hp : route s.platform (stackAddr (s.sp + 2)) = some p) (hl : s.peek (stackAddr (s.sp + 1)) = some l)
    (hh : s.peek (stackAddr (s.sp + 2)) = some h) :
    exec .rts s = .next (((s.pullDone q).pullDone p).setPc (join h l + 1)) := by
  have hpeek : (s.pullDone q).peek (stackAddr (s.sp + 2)) = s.peek (stackAddr (s.sp + 2)) := State.peek_congr rfl rfl rfl _
  rw [exec_rts_of_covered hq hp, State.answer_of_peek hq hl,
    State.answer_of_peek (s := s.pullDone q) hp (hpeek.trans hh)]

/-- Settles O50: the two bytes JSR stored are read back by RTS, low byte first, from the same two places. -/
theorem rtsReturnsAfterJsr : Obligations.RtsReturnsAfterJsr := by
  intro w there s t p q hwf hp hq hpk hqk hne h
  have hkey : p.key ≠ q.key := fun h => hne (Place.key_inj (route_localAddr hp) (route_localAddr hq) h)
  obtain ⟨hlo, hhi⟩ := State.callDone_peek w hwf hp hq hpk hqk hkey
  have heq := s.callDone_eq w p q
  rw [exec_jsr_of_covered w hp hq] at h
  cases h
  generalize s.callDone w p q = t at hlo hhi heq
  obtain ⟨hplatform, hac, hx, hy, hsr, hrun⟩ :
      t.platform = s.platform ∧ t.ac = s.ac ∧ t.x = s.x ∧ t.y = s.y ∧ t.sr = s.sr ∧ t.run = s.run := by
    rw [heq]
    exact ⟨rfl, rfl, rfl, rfl, rfl, rfl⟩
  have hlow : t.sp + 1 = s.sp - 1 := by rw [heq, sub_add]; rfl
  have hhigh : t.sp + 2 = s.sp := by rw [heq, sub_add_cancel]
  rw [← hplatform, ← hlow] at hq
  rw [← hlow] at hlo
  rw [← hplatform, ← hhigh] at hp
  rw [← hhigh] at hhi
  have hpc : join (hi (s.pc - 1)) (lo (s.pc - 1)) + 1 = s.pc := by rw [join_hi_lo, sub_add_cancel]
  have hsp : t.sp + 1 + 1 = s.sp := (add_one_add_one t.sp).trans hhigh
  exact ⟨_, exec_rts_of_peek (s := { t with pc := there }) hq hp hlo hhi, hpc, hsp, hac, hx, hy, hsr, hrun⟩

end Sys2Proof.Machine
end

section
/-! PROOFS. Reset and the host (70_reset_and_hazards.md R180 to R182, 60_exceptions.md R176). -/

namespace Sys2Proof.Machine

/-- Between Steps, where the latch is empty, Reset is the two vector reads and then its writes (R180). -/
theorem hostReset_eq {s : State} (hw : s.platform.wf = true) (hl : s.latch = .empty) :
    hostReset s = ((memRead16 0xFFFC s).andThen fun entry t => .ok () (t.restart entry)).outcome := by
  have hlatch : s.setLatch .empty = s := by
    rw [← hl]
    rfl
  rw [hostReset, if_pos hw, hlatch, resetVector]

/-- Settles O53: the word at the vector, its low byte missed, or its high byte missed. -/
theorem resetLoadsTheVector : Obligations.ResetLoadsTheVector := by
  intro s hw hl
  rw [hostReset_eq hw hl]
  refine ⟨fun p q hp hq => ?_, fun hp => ?_, fun p hp hq => ?_⟩
  · obtain ⟨h, hread, hpeek⟩ := memRead16_of_covered (a := 0xFFFC) hp hq
    rw [hread]
    exact ⟨_, h, rfl, toNat_join h _, rfl, hpeek⟩
  · rw [memRead16_of_low_unmapped hp]
    exact ⟨_, rfl, s.enterFault_endsFaulted _, s.enterFault_bus _⟩
  · rw [memRead16_of_high_unmapped (a := 0xFFFC) hp hq]
    exact ⟨_, rfl, (SameButBus.readDone s _ p).enterFault_endsFaulted _, (s.readDone _ p).enterFault_bus _⟩

/-- A Reset whose two vector bytes are covered (R180). -/
theorem hostReset_of_route {s : State} {p q : Place} (hw : s.platform.wf = true) (hp : route s.platform resetVector = some p)
    (hq : route s.platform (resetVector + 1) = some q) :
    hostReset s =
      .next ((((s.setLatch .empty).readDone resetVector p).readDone (resetVector + 1) q).restart
        (join (((s.setLatch .empty).readDone resetVector p).answer q) (s.answer p))) := by
  rw [hostReset, if_pos hw, memRead16_of_route (s := s.setLatch .empty) hp hq]
  rfl

/-- RAM in which nothing is listed reads as the fill byte (log entry 4). -/
theorem State.answer_of_mem_nil {s : State} {p : Place} (hm : s.mem = []) (hk : p.kind = .ram) : s.answer p = fillByte := by
  rw [State.answer, if_pos (State.holds_ram hk), hm, Memory.read_nil]

/-- Settles O54: both vector bytes are RAM in which nothing is listed, and no Step is taken before the Reset. -/
theorem resetStateIsPowerOnThenReset : Obligations.ResetStateIsPowerOnThenReset := by
  intro pc sr
  refine ⟨?_, rfl⟩
  have hwf : Config.ramPlatform.wf = true := rfl
  have hlow : route Config.ramPlatform resetVector = some ⟨0, .ram, 0xFFFC⟩ := rfl
  have hhigh : route Config.ramPlatform (resetVector + 1) = some ⟨0, .ram, 0xFFFD⟩ := rfl
  generalize hs : State.powerOn Config.ramPlatform [] pc sr 0x00 0x00 0x00 0x00 0x00 false = s
  have hplatform : s.platform = Config.ramPlatform := by rw [← hs]; rfl
  have hmem : s.mem = [] := by rw [← hs]; rfl
  rw [← hplatform] at hwf hlow hhigh
  rw [hostReset_of_route hwf hlow hhigh, State.answer_of_mem_nil hmem rfl,
    State.answer_of_mem_nil (s := (s.setLatch .empty).readDone _ _) hmem rfl, ← hs]
  rfl

/-- A Reset that can read its vector starts a run and keeps AC, X, Y, SP and memory (R180, R181). -/
theorem hostReset_of_mapped {s : State} (hw : s.platform.wf = true) (hmap : ∀ a, s.mapped a = true) :
    ∃ t, hostReset s = .next t ∧ t.run = .running ∧ t.ac = s.ac ∧ t.x = s.x ∧ t.y = s.y ∧ t.sp = s.sp ∧ t.mem = s.mem := by
  obtain ⟨p, hp⟩ := Option.isSome_iff_exists.1 (hmap resetVector)
  obtain ⟨q, hq⟩ := Option.isSome_iff_exists.1 (hmap (resetVector + 1))
  exact ⟨_, hostReset_of_route hw hp hq, rfl, rfl, rfl, rfl, rfl, rfl⟩

/-- Settles O55: the host stop writes `run` alone, no Step is taken in STOPPED, and a Reset reads its vector as from anywhere. -/
theorem hostStopEndsTheRun : Obligations.HostStopEndsTheRun := by
  intro s hw hr
  have hstop : hostStop s = { s with run := .stopped } := if_pos hr
  rw [hstop]
  obtain ⟨-, -, hstopped, -⟩ := noStepOutsideRunning.1 { s with run := .stopped } hw
  exact ⟨rfl, hstopped rfl, hostReset_of_mapped (s := { s with run := .stopped }) hw⟩

end Sys2Proof.Machine
end
